-- ==== Sys2Proof/Word.lean ====
section
/-! DEFINITION. The words of the block: bytes, 16-bit values and byte strings (00_scope.md R7). -/

namespace Sys2Proof

/-- An unsigned 8-bit value (R7). -/
abbrev Byte := BitVec 8

/-- The spec's `u16`: the CRC register and every checksum (R11). -/
abbrev U16 := BitVec 16

/-- A 16-bit op word, format `OP16` (R60). -/
abbrev OpWord := BitVec 16

/-- A finite sequence of bytes, index 0 first (R7). -/
abbrev ByteString := List Byte

end Sys2Proof
end

