-- ==== Sys2Proof/Syntax.lean ====
section
/-! DEFINITION. The 26 operations of the block, one constructor per row of spec/opcode_table.json (30_encoding.md R61). -/

namespace Sys2Proof

/-- The three agents that present op words (00_scope.md R6). -/
inductive Agent where
  | host
  | line
  | timer
  deriving DecidableEq, Repr

/-- The operations of R61. An operand is the byte `imm8` of the op word (R60, R62). -/
inductive Instr where
  | nop
  | reset
  | crcInit
  | crcByte (b : Byte)
  /-- The data bit is bit 0 of the operand; bits 7..1 must be zero (`Instr.wellFormed`). -/
  | crcBit (d : Byte)
  | cmdClear
  | cmdPush (b : Byte)
  /-- The operand is the second marker byte; a byte that is no marker is a caller error, not a reserved word (R62). -/
  | txStart (m : Byte)
  | txPop
  | rxClear
  | rxByte (b : Byte)
  | rxTimeout
  | validate
  | extract
  | ackCheck
  | decProtocolId
  | decStatus
  | decMode
  | decFault
  | decSerial
  | decFirmware
  | decRated
  | decModel
  | decTime
  | decSchedule
  | decEnergy
  deriving DecidableEq, Repr

/-- The agent of an operation, the agent column of R61: `RX_BYTE` is the Line's, `RX_TIMEOUT` the Timer's, the rest the Host's. -/
def Instr.agent : Instr → Agent
  | .nop => .host
  | .reset => .host
  | .crcInit => .host
  | .crcByte _ => .host
  | .crcBit _ => .host
  | .cmdClear => .host
  | .cmdPush _ => .host
  | .txStart _ => .host
  | .txPop => .host
  | .rxClear => .host
  | .rxByte _ => .line
  | .rxTimeout => .timer
  | .validate => .host
  | .extract => .host
  | .ackCheck => .host
  | .decProtocolId => .host
  | .decStatus => .host
  | .decMode => .host
  | .decFault => .host
  | .decSerial => .host
  | .decFirmware => .host
  | .decRated => .host
  | .decModel => .host
  | .decTime => .host
  | .decSchedule => .host
  | .decEnergy => .host

end Sys2Proof
end

