-- ==== Sys2Proof/WellFormed.lean ====
section
/-! DEFINITION. Which terms of Instr stand for an op word of the block (30_encoding.md R62): the operand of `CRC_BIT` has bits 7..1
zero. Every other operand may take all 256 values, `TX_START`'s included (R62). -/

namespace Sys2Proof

/-- The operand check of R62. -/
def Instr.wellFormed : Instr → Bool
  | .nop => true
  | .reset => true
  | .crcInit => true
  | .crcByte _ => true
  | .crcBit d => d.extractLsb' 1 7 == 0#7
  | .cmdClear => true
  | .cmdPush _ => true
  | .txStart _ => true
  | .txPop => true
  | .rxClear => true
  | .rxByte _ => true
  | .rxTimeout => true
  | .validate => true
  | .extract => true
  | .ackCheck => true
  | .decProtocolId => true
  | .decStatus => true
  | .decMode => true
  | .decFault => true
  | .decSerial => true
  | .decFirmware => true
  | .decRated => true
  | .decModel => true
  | .decTime => true
  | .decSchedule => true
  | .decEnergy => true

end Sys2Proof
end

