-- ==== Sys2Proof/Decode.lean ====
section
/-! DEFINITION. The op word (30_encoding.md R60 to R63): its two fields, the decoder, total on all 65536 words and rejecting a reserved
word by name, and the encoder. -/

namespace Sys2Proof

/-- Why a word is reserved (R63). The block answers each of them with `ILLEGAL_OP`. -/
inductive Reserved where
  /-- The opcode is not in the table of R61. -/
  | unknownOpcode
  /-- The operand is not 0x00 where the operation takes none. -/
  | operandNotZero
  /-- `CRC_BIT` with `imm8[7:1]` not zero. -/
  | crcBitOperand
  deriving DecidableEq, Repr

/-- Bits 15..8 of an op word (R60). -/
def opcodeField (w : OpWord) : Byte := w.extractLsb' 8 8

/-- Bits 7..0 of an op word (R60). -/
def immField (w : OpWord) : Byte := w.extractLsb' 0 8

/-- An operation without an operand requires `imm8 = 0x00` (R62). -/
def noOperand (imm : Byte) (i : Instr) : Except Reserved Instr :=
  if imm = 0x00#8 then .ok i else .error .operandNotZero

/-- `CRC_BIT` requires `imm8[7:1] = 0` (R62). -/
def bitOperand (imm : Byte) : Except Reserved Instr :=
  if imm.extractLsb' 1 7 = 0#7 then .ok (.crcBit imm) else .error .crcBitOperand

/-- The opcode map of R61. -/
def decode (w : OpWord) : Except Reserved Instr :=
  let op := opcodeField w
  let imm := immField w
  if op = 0x00#8 then noOperand imm .nop
  else if op = 0x01#8 then noOperand imm .reset
  else if op = 0x10#8 then noOperand imm .crcInit
  else if op = 0x11#8 then .ok (.crcByte imm)
  else if op = 0x12#8 then bitOperand imm
  else if op = 0x20#8 then noOperand imm .cmdClear
  else if op = 0x21#8 then .ok (.cmdPush imm)
  else if op = 0x22#8 then .ok (.txStart imm)
  else if op = 0x23#8 then noOperand imm .txPop
  else if op = 0x30#8 then noOperand imm .rxClear
  else if op = 0x31#8 then .ok (.rxByte imm)
  else if op = 0x32#8 then noOperand imm .rxTimeout
  else if op = 0x40#8 then noOperand imm .validate
  else if op = 0x41#8 then noOperand imm .extract
  else if op = 0x42#8 then noOperand imm .ackCheck
  else if op = 0x50#8 then noOperand imm .decProtocolId
  else if op = 0x51#8 then noOperand imm .decStatus
  else if op = 0x52#8 then noOperand imm .decMode
  else if op = 0x53#8 then noOperand imm .decFault
  else if op = 0x54#8 then noOperand imm .decSerial
  else if op = 0x55#8 then noOperand imm .decFirmware
  else if op = 0x56#8 then noOperand imm .decRated
  else if op = 0x57#8 then noOperand imm .decModel
  else if op = 0x58#8 then noOperand imm .decTime
  else if op = 0x59#8 then noOperand imm .decSchedule
  else if op = 0x5A#8 then noOperand imm .decEnergy
  else .error .unknownOpcode

/-- The opcode byte of each operation (R61); also the `op` of a diagnostics entry (10_state.md R23). -/
def opcode : Instr → Byte
  | .nop => 0x00#8
  | .reset => 0x01#8
  | .crcInit => 0x10#8
  | .crcByte _ => 0x11#8
  | .crcBit _ => 0x12#8
  | .cmdClear => 0x20#8
  | .cmdPush _ => 0x21#8
  | .txStart _ => 0x22#8
  | .txPop => 0x23#8
  | .rxClear => 0x30#8
  | .rxByte _ => 0x31#8
  | .rxTimeout => 0x32#8
  | .validate => 0x40#8
  | .extract => 0x41#8
  | .ackCheck => 0x42#8
  | .decProtocolId => 0x50#8
  | .decStatus => 0x51#8
  | .decMode => 0x52#8
  | .decFault => 0x53#8
  | .decSerial => 0x54#8
  | .decFirmware => 0x55#8
  | .decRated => 0x56#8
  | .decModel => 0x57#8
  | .decTime => 0x58#8
  | .decSchedule => 0x59#8
  | .decEnergy => 0x5A#8

/-- The operand byte of each operation, 0x00 where it takes none (R61). -/
def operandByte : Instr → Byte
  | .nop => 0x00#8
  | .reset => 0x00#8
  | .crcInit => 0x00#8
  | .crcByte b => b
  | .crcBit d => d
  | .cmdClear => 0x00#8
  | .cmdPush b => b
  | .txStart m => m
  | .txPop => 0x00#8
  | .rxClear => 0x00#8
  | .rxByte b => b
  | .rxTimeout => 0x00#8
  | .validate => 0x00#8
  | .extract => 0x00#8
  | .ackCheck => 0x00#8
  | .decProtocolId => 0x00#8
  | .decStatus => 0x00#8
  | .decMode => 0x00#8
  | .decFault => 0x00#8
  | .decSerial => 0x00#8
  | .decFirmware => 0x00#8
  | .decRated => 0x00#8
  | .decModel => 0x00#8
  | .decTime => 0x00#8
  | .decSchedule => 0x00#8
  | .decEnergy => 0x00#8

/-- The op word of an operation: opcode in bits 15..8, operand in bits 7..0 (R60). -/
def encode (i : Instr) : OpWord := opcode i ++ operandByte i

/-- The low `nbits` bits of `w` as an op word: the bits above are zero. -/
def tableWord (nbits w : Nat) : OpWord := BitVec.ofNat 16 (w % 2 ^ nbits)

/-- What the decoder reads from a row of the opcode table, numbered as the table numbers its bits (one word of 16 bits). -/
def decodeTableWord (nbits w : Nat) : Option Instr :=
  match decode (tableWord nbits w) with
  | .ok i => some i
  | .error _ => none

end Sys2Proof
end

