-- ==== Sys2Proof/Config.lean ====
section
/-! DEFINITION. The parameters of the block (00_scope.md R5): the values the spec gives a default, and the OPEN tables of D38 as
constants without a body, so that no proof can see what they hold. -/

namespace Sys2Proof

/-- When the extractor cuts the payload by the declared length (R139, D20). -/
inductive Trust where
  /-- Only when the actual length equals the expected total: the default. -/
  | clean
  /-- Whenever the Response is valid: the other admitted value. -/
  | withinTolerance
  deriving DecidableEq, Repr

/-- The three direction fields of the general status (R167). -/
inductive DirField where
  | battery
  | dcAc
  | line
  deriving DecidableEq, Repr

/-- The two direction codes whose names the source does not give (R167). -/
inductive DirCode where
  | one
  | two
  deriving DecidableEq, Repr

/-- The kinds of an entry of `GS_MAP` (R166); a `DIR` entry says which of the three direction fields it is. -/
inductive GsKind where
  | int
  | tenth
  | flag
  | mppt
  | dir (field : DirField)
  deriving DecidableEq, Repr

/-- An entry `(name, index, kind)` of `GS_MAP` (R166). -/
structure GsEntry where
  name : ByteString
  index : Nat
  kind : GsKind
  deriving DecidableEq, Repr

/-- The seven enumerations of the rated information (R173, `RATED_ENUMS`). -/
inductive EnumTable where
  | batteryType
  | inputVoltageRange
  | priority
  | machineType
  | topology
  | outputMode
  | solarPowerPriority
  deriving DecidableEq, Repr

/-- The kinds of an entry of `RATED_MAP` (R173). -/
inductive RatedKind where
  | int
  | tenth
  | enum (table : EnumTable)
  deriving DecidableEq, Repr

/-- An entry `(name, index, kind)` of `RATED_MAP` (R173). -/
structure RatedEntry where
  name : ByteString
  index : Nat
  kind : RatedKind
  deriving DecidableEq, Repr

namespace Config

/-! ## The CRC unit -/

/-- `CRC_WIDTH`: the width of the checksum in bits. -/
abbrev crcWidth : Nat := 16

/-- `CRC_INIT`. UNVERIFIED against a device (R260). -/
abbrev crcInit : U16 := 0xFFFF#16

/-- `CRC_POLY_REFLECTED`. UNVERIFIED against a device (R260). -/
abbrev crcPoly : U16 := 0xA001#16

/-- `CRC_XOROUT`: nothing is XORed into the result (R94, G1). -/
abbrev crcXorOut : U16 := 0x0000#16

/-! ## The wire frame -/

/-- `MARK0`, the character `^`. -/
abbrev mark0 : Byte := 0x5E#8

/-- `MARK_REQUEST`, the letter P. -/
abbrev markRequest : Byte := 0x50#8

/-- `MARK_WRITE`, the letter S. -/
abbrev markWrite : Byte := 0x53#8

/-- `MARK_DATA`, the letter D. -/
abbrev markData : Byte := 0x44#8

/-- `MARK_ACK`, the digit 1. -/
abbrev markAck : Byte := 0x31#8

/-- `TERMINATOR`, the carriage return. -/
abbrev terminator : Byte := 0x0D#8

/-- `HEADER_LEN`: marker and length field. -/
abbrev headerLen : Nat := 5

/-- `TRAILER_LEN`: CRC and terminator. -/
abbrev trailerLen : Nat := 3

/-- `LEN_DIGITS`: ASCII digits of the length field. -/
abbrev lenDigits : Nat := 3

/-- `LEN_MAX`: the largest length value. -/
abbrev lenMax : Nat := 999

/-- `CMD_MAX`: the capacity of the command buffer (R40). -/
abbrev cmdMax : Nat := 996

/-- `RX_MAX`: the capacity of the response buffer and the byte-count guard (R40, R122). -/
abbrev rxMax : Nat := 1000

/-! ## The validator and the extractor -/

/-- `LEN_TOLERANCE`, the default of R134 (DESIGN CHOICE among the admitted 2 and 0: log 10). -/
abbrev lenTolerance : Nat := 2

/-- `TRUST_DECLARED`, the default of R139 (DESIGN CHOICE among the two admitted values: log 10). -/
abbrev trustDeclared : Trust := .clean

/-! ## The decoders -/

/-- `GS_MIN_FIELDS`. -/
abbrev gsMinFields : Nat := 28

/-- `FAULT_MIN_FIELDS`. -/
abbrev faultMinFields : Nat := 17

/-- `RATED_MIN_FIELDS`. -/
abbrev ratedMinFields : Nat := 21

/-- `RATED_MAX_FIELDS`: fields of this index and above mean nothing (R172). -/
abbrev ratedMaxFields : Nat := 25

/-- `GS_MAP`, OPEN (R166, D38). -/
opaque gsMap : List GsEntry

/-- FREE VALUE (log 23): what stands for `f[index]` when an entry of `GS_MAP` names a field that a payload of these fields does not have;
`none` when the quantity is then `null` without a warning. The spec states nothing there. -/
opaque gsMissing : GsEntry → List ByteString → Option ByteString

/-- `RATED_MAP`, OPEN (R173, D38). -/
opaque ratedMap : List RatedEntry

/-- `FAULT_TABLE`, OPEN: a partial map from fault codes to descriptions (R169). -/
opaque faultTable : Nat → Option ByteString

/-- `FAULT_FLAG_NAMES`, OPEN: the names of flags 1 to 16 (R169). -/
opaque faultFlagNames : Nat → ByteString

/-- `MODEL_TABLE`, OPEN: a partial map from two-byte codes to names (R174). -/
opaque modelTable : ByteString → Option ByteString

/-- `RATED_ENUMS`, OPEN: each table a partial map from codes to names (R173). -/
opaque ratedEnums : EnumTable → Nat → Option ByteString

/-- `DIRECTION_NAMES`, OPEN: the names of codes 1 and 2 of each direction field (R167). -/
opaque directionNames : DirField → DirCode → ByteString

/-! ## Outside the block: no rule reads these (R5, R204, R234) -/

/-- `TIME_BUDGET`, OPEN; the Timer agent's, read by no rule (D39). -/
opaque timeBudget : Nat

/-- Line parameter: baud. -/
abbrev lineBaud : Nat := 2400

/-- Line parameter: data bits. -/
abbrev lineDataBits : Nat := 8

/-- Line parameter: parity bits (no parity). -/
abbrev lineParityBits : Nat := 0

/-- Line parameter: stop bits. -/
abbrev lineStopBits : Nat := 1

end Config

end Sys2Proof
end

