-- ==== Sys2Proof/Machine/State.lean ====
section
/-! DEFINITION. The state of the block (10_state.md R10 to R39), the reasons a step can stop, and the state after power-on reset
(70_reset_and_hazards.md R250). The numbers of the enumerations stand in Machine/Views.lean. -/

namespace Sys2Proof.Machine

/-! ## Enumerations -/

/-- `tx_phase`: which byte of the frame the next `TX_POP` emits (R15). -/
inductive TxPhase where
  | idle
  | m0
  | m1
  | l2
  | l1
  | l0
  | body
  | crch
  | crcl
  | term
  deriving DecidableEq, Repr

/-- `rx_state`: the capture unit (R18). -/
inductive RxState where
  | idle
  | capturing
  | done
  deriving DecidableEq, Repr

/-- `rx_end`: why the capture ended (R18). -/
inductive RxEnd where
  | none
  | term
  | overflow
  | timeout
  deriving DecidableEq, Repr

/-- `v_reason`: the fatal finding of the validator (R19). -/
inductive Reason where
  | none
  | empty
  | marker
  | lenField
  | length
  deriving DecidableEq, Repr

/-- `ack`: the verdict of the acknowledgement check (R21). -/
inductive Ack where
  | none
  | accepted
  | refused
  deriving DecidableEq, Repr

/-- `err`: the class of the last outcome (R22, 60_exceptions.md R220). The block itself never raises `connection`. -/
inductive ErrClass where
  | none
  | connection
  | protocol
  | parse
  | refused
  | timeout
  | caller
  deriving DecidableEq, Repr

/-- `err_info` and the detail of a diagnostics entry (60_exceptions.md R223). -/
inductive Detail where
  | none
  | illegalOp
  | busy
  | notReady
  | badMarker
  | cmdTooLong
  | cmdNotAscii
  | txIdle
  | noResponse
  | vEmpty
  | vMarker
  | vLenField
  | vLength
  | wLengthSoft
  | wNoterm
  | xFallback
  | xShort
  | pShort
  | pFormat
  | pField
  | pLengthMismatch
  | notAck
  deriving DecidableEq, Repr

/-- The short codes of the diagnostics log (R23, 60_exceptions.md R222). -/
inductive DiagCode where
  | eConn
  | eProto
  | eParse
  deriving DecidableEq, Repr

/-- An entry of the diagnostics log: code, detail and the opcode byte of the operation that appended it (R23). -/
structure DiagEntry where
  code : DiagCode
  detail : Detail
  op : Byte
  deriving DecidableEq, Repr

/-! ## Buffers -/

/-- The contents of a buffer: the listed `(index, byte)` pairs with rising indices; an unlisted index reads as 0x00 and no listed byte
is 0x00 (DESIGN CHOICE, log 3). The operations stand in Machine/Ops.lean. -/
abbrev Memory := List Host.Cell

/-! ## Verdict registers -/

/-- The validator's registers `v_valid`, `v_ok`, `v_soft`, `v_noterm`, `v_reason`, `decl_len`, `exp_total` (R19). -/
structure VerdictRegs where
  valid : Bool
  ok : Bool
  soft : Bool
  noterm : Bool
  reason : Reason
  declLen : Nat
  expTotal : Nat
  deriving DecidableEq, Repr

/-- The verdict registers as `RESET` and `RX_CLEAR` leave them (R19). -/
def VerdictRegs.cleared : VerdictRegs :=
  { valid := false, ok := false, soft := false, noterm := false, reason := .none, declLen := 0, expTotal := 0 }

/-- The extractor's registers `pay_valid`, `pay_null`, `pay_off`, `pay_len`, `pay_fallback` (R20). -/
structure PayRegs where
  valid : Bool
  isNull : Bool
  off : Nat
  len : Nat
  fallback : Bool
  deriving DecidableEq, Repr

/-- The extractor's registers as `RESET` and `RX_CLEAR` leave them (R20). -/
def PayRegs.cleared : PayRegs := { valid := false, isNull := false, off := 0, len := 0, fallback := false }

/-! ## The decoded record -/

/-- A text field: `rx[off : off + len]`, never copied (R31). -/
structure Slice where
  off : Nat
  len : Nat
  deriving DecidableEq, Repr

/-- `rec_tag` (R30). -/
inductive RecTag where
  | none
  | protocolId
  | status
  | mode
  | fault
  | serial
  | firmware
  | rated
  | model
  | time
  | schedule
  | energy
  deriving DecidableEq, Repr

/-- `mode_name` (R34, 45_field_decoders.md R164). -/
inductive ModeName where
  | powerOn
  | standby
  | bypass
  | battery
  | fault
  | hybrid
  | unknown
  deriving DecidableEq, Repr

/-- The MPPT states (45_field_decoders.md R167). -/
inductive Mppt where
  | abnormal
  | normal
  | charging
  | unknown
  deriving DecidableEq, Repr

/-- A direction: `DONOTHING`, a state named by `DIRECTION_NAMES`, or `UNKNOWN` (45_field_decoders.md R167). -/
inductive Direction where
  | doNothing
  | named (name : ByteString)
  | unknown
  deriving DecidableEq, Repr

/-- A value of the general-status overlay (45_field_decoders.md R166); a number is `none` when the field is no number. -/
inductive GsValue where
  /-- The spec's `null` of a quantity whose field is not in the payload (log 23). -/
  | absent
  | int (value : Option Nat)
  /-- The integer stands for itself divided by 10 (R31). -/
  | tenth (value : Option Nat)
  | flag (value : Bool)
  | mppt (value : Mppt)
  | dir (value : Direction)
  deriving DecidableEq, Repr

/-- A value of the rated-information overlay (45_field_decoders.md R172, R173). -/
inductive RatedValue where
  /-- The spec's `null` of a quantity whose field is not in the payload (R172). -/
  | absent
  | int (value : Option Nat)
  /-- The integer stands for itself divided by 10 (R31). -/
  | tenth (value : Option Nat)
  | named (name : ByteString)
  | unknown
  deriving DecidableEq, Repr

/-- The fields of the record, one shape per decoder (R32 to R36). The fields of the other shapes do not exist (R30). -/
inductive Fields where
  | none
  | protocolId (id : Slice)
  | status (nfields : Nat) (field : List Slice) (overlay : List (ByteString × GsValue))
  | mode (code : Nat) (name : ModeName)
  | fault (nfields : Nat) (field : List Slice) (code : Option Nat) (flags : List Bool)
  | serial (declared : Option Nat) (text : Slice) (isMatch : Bool)
  | firmware (main : Slice) (slave1 slave2 : Option Slice)
  | rated (nfields : Nat) (field : List Slice) (overlay : List (ByteString × RatedValue))
  | model (code : Slice) (known : Bool) (name : ByteString)
  | time (year month day hour minute second : Nat) (iso : ByteString)
  | schedule (startH startM endH endM : Nat) (enabled defaulted : Bool)
  | energy (wh kwhInt kwhFrac : Nat)
  deriving DecidableEq, Repr

/-- The register group `rec`: `rec_tag`, `rec_null`, `rec_partial` and the fields of the tag's shape (R30). -/
structure Record where
  tag : RecTag
  isNull : Bool
  isPartial : Bool
  fields : Fields
  deriving DecidableEq, Repr

/-- The record as `RESET` and `RX_CLEAR` leave it (R30). -/
def Record.cleared : Record := { tag := .none, isNull := false, isPartial := false, fields := .none }

/-! ## The state -/

/-- An op word as an agent presents it (R6, R60). The block does not look at the agent (30_encoding.md R64). -/
structure Presented where
  agent : Agent
  word : OpWord
  deriving DecidableEq, Repr

/-- The state of the block (R10). -/
structure State where
  /-- The CRC register (R11). -/
  crc : U16
  /-- The command buffer, indices 0..995 (R38, R40). -/
  cmd : Memory
  /-- Command bytes held, 0..996 (R12). -/
  cmdLen : Nat
  /-- A byte was offered to a full command buffer (R12). -/
  cmdOvf : Bool
  /-- A byte of 0x80 or above was pushed (R12). -/
  cmdBad : Bool
  txPhase : TxPhase
  /-- The index of the next command byte in phase `BODY`, 0..996 (R15). -/
  txIdx : Nat
  /-- The second marker byte (R15). -/
  txMarker : Byte
  /-- The byte emitted last (R17). -/
  txOut : Byte
  /-- The bytes emitted since the last `TX_START` (R17, a history variable). -/
  txStream : ByteString
  /-- The response buffer, indices 0..999 (R38, R40). -/
  rx : Memory
  /-- Response bytes held, 0..1000 (R13). -/
  rxLen : Nat
  rxState : RxState
  rxEnd : RxEnd
  verdict : VerdictRegs
  pay : PayRegs
  ack : Ack
  err : ErrClass
  errInfo : Detail
  /-- The diagnostics log, oldest entry first (R23, a history variable). -/
  diag : List DiagEntry
  record : Record
  /-- THE MODEL'S OWN FIELD: the op words the agents have yet to present, in the order the block accepts them (R52, log 1). -/
  inbox : List Presented
  deriving DecidableEq, Repr

/-- `diag_count`, the length of the log (R23, log 15). -/
def State.diagCount (s : State) : Nat := s.diag.length

/-- Why a step stops with a fault. -/
inductive Fault where
  /-- Raised by `TX_POP` in phase `BODY` when `tx_idx` is no index of `cmd` (996 and above). R41 says it cannot arise, and the
  invariant of Safety.lean excludes it. Safe: the model stops where the spec gives no byte (log 5). -/
  | cmdIndex (index : Nat)
  /-- Raised by `RX_BYTE` while capturing, and by the operations that read a Response, when they would touch an index that `rx` does
  not have (1000 and above). R41 says it cannot arise, and the invariant of Safety.lean excludes it. Safe (log 5). -/
  | rxIndex (index : Nat)
  deriving DecidableEq, Repr

/-- Why a step is refused by the model. -/
inductive Refusal where
  /-- Raised by `exec` alone, for an operation without a meaning; no operation is left without one. Safe. -/
  | notModelled (mnemonic : String)
  deriving DecidableEq, Repr

/-- What a step or a meaning answers. -/
abbrev Result := Host.Outcome State Fault Refusal

/-- The block after power-on reset (R250). The two buffers' contents are unspecified there: nothing is listed (log 3). No agent has
presented anything (log 1). -/
def State.reset : State where
  crc := Config.crcInit
  cmd := []
  cmdLen := 0
  cmdOvf := false
  cmdBad := false
  txPhase := .idle
  txIdx := 0
  txMarker := Config.markRequest
  txOut := 0x00#8
  txStream := []
  rx := []
  rxLen := 0
  rxState := .idle
  rxEnd := .none
  verdict := .cleared
  pay := .cleared
  ack := .none
  err := .none
  errInfo := .none
  diag := []
  record := .cleared
  inbox := []

end Sys2Proof.Machine
end

