-- ==== Sys2Proof/Machine/Ops.lean ====
section
/-! DEFINITION. The shared operations: the two buffers (20_memory.md), the delivery of an outcome, which stands where other hardware
takes an exception (60_exceptions.md R221 to R223, R228 to R230), the refusals (R229), and taking the next op word. -/

namespace Sys2Proof.Machine

/-! ## Buffers (R40 to R43) -/

/-- What an unlisted index reads as (DESIGN CHOICE 0x00, log 3; unobservable by R41). -/
abbrev unlistedByte : Byte := 0x00#8

/-- `MemRead(buf, i)` (R7). -/
def Memory.read : Memory → Nat → Byte
  | [], _ => unlistedByte
  | (k, v) :: m, a => if a = k then v else Memory.read m a

/-- `MemWrite(buf, i, b)` (R7), keeping the canonical form: writing the unlisted byte removes the entry. -/
def Memory.write : Memory → Nat → Byte → Memory
  | [], a, b => if b = unlistedByte then [] else [(a, b)]
  | (k, v) :: m, a, b =>
    if a < k then (if b = unlistedByte then (k, v) :: m else (a, b) :: (k, v) :: m)
    else if a = k then (if b = unlistedByte then m else (k, b) :: m)
    else (k, v) :: Memory.write m a b

/-- The canonical form from index `lo` on: indices strictly rising, no entry equal to the unlisted byte. -/
def Memory.wfFrom : Nat → Memory → Bool
  | _, [] => true
  | lo, (k, v) :: m => decide (lo ≤ k) && !(v == unlistedByte) && Memory.wfFrom (k + 1) m

/-- The canonical form of a buffer. -/
def Memory.wf (m : Memory) : Bool := Memory.wfFrom 0 m

/-- Every listed index is below the buffer's size. -/
def Memory.within (size : Nat) (m : Memory) : Bool := m.all fun c => decide (c.1 < size)

/-- The byte string `buf[0:n]` (R7). -/
def Memory.bytes (m : Memory) (n : Nat) : ByteString := (List.range n).map (Memory.read m)

/-- The command `cmd[0:cmd_len]`. -/
def State.command (s : State) : ByteString := Memory.bytes s.cmd s.cmdLen

/-- The Response `raw = rx[0:rx_len]` (42_rx_capture.md R125). -/
def State.response (s : State) : ByteString := Memory.bytes s.rx s.rxLen

/-! ## Outcomes (R220 to R223, R228) -/

/-- The diagnostics code of an error class (R222); `REFUSED` and `CALLER` have none. -/
def ErrClass.diagCode : ErrClass → Option DiagCode
  | .none => Option.none
  | .connection => some .eConn
  | .protocol => some .eProto
  | .parse => some .eParse
  | .refused => Option.none
  | .timeout => some .eConn
  | .caller => Option.none

/-- The diagnostics code of a detail, the class/code column of R223. -/
def Detail.diagCode : Detail → Option DiagCode
  | .none => Option.none
  | .illegalOp => Option.none
  | .busy => Option.none
  | .notReady => Option.none
  | .badMarker => Option.none
  | .cmdTooLong => Option.none
  | .cmdNotAscii => Option.none
  | .txIdle => Option.none
  | .noResponse => some .eConn
  | .vEmpty => some .eProto
  | .vMarker => some .eProto
  | .vLenField => some .eProto
  | .vLength => some .eProto
  | .wLengthSoft => some .eProto
  | .wNoterm => some .eProto
  | .xFallback => some .eProto
  | .xShort => some .eProto
  | .pShort => some .eParse
  | .pFormat => some .eParse
  | .pField => some .eParse
  | .pLengthMismatch => some .eParse
  | .notAck => Option.none

/-- The entries `[(code, info, op)]` that a logged finding adds, none where there is no code. -/
def logEntry : Option DiagCode → Detail → Byte → List DiagEntry
  | Option.none, _, _ => []
  | some c, d, op => [{ code := c, detail := d, op := op }]

/-- `raise <Error>(info)` (R7, R221): the ONE delivery of an error. Nothing is saved, no mode changes and control goes nowhere (R228). -/
def raiseErr (c : ErrClass) (d : Detail) (op : Byte) (s : State) : State :=
  { s with err := c, errInfo := d, diag := s.diag ++ logEntry c.diagCode d op }

/-- `err <- NONE; err_info <- 0`. There is no return from an error and nothing to restore (R230): the next success overwrites it. -/
def succeed (s : State) : State := { s with err := .none, errInfo := .none }

/-- `warn(info)` (R7): a finding is logged; `err` and `err_info` are not touched. -/
def warnDiag (d : Detail) (op : Byte) (s : State) : State :=
  { s with diag := s.diag ++ logEntry d.diagCode d op }

/-- `if b then warn(info)`. -/
def warnIf (b : Bool) (d : Detail) (op : Byte) (s : State) : State := if b then warnDiag d op s else s

/-- A refusal of the block: `CALLER` with its detail and nothing else (R229). `CALLER` has no diagnostics code. -/
def callerError (d : Detail) (op : Byte) (s : State) : State := raiseErr .caller d op s

/-- The effect of a reserved op word (30_encoding.md R63). -/
def illegalOp (w : OpWord) (s : State) : State := callerError .illegalOp (opcodeField w) s

/-! ## Guards (R16, 42_rx_capture.md R126) -/

/-- Transmit-busy (R16). -/
def State.busy (s : State) : Bool := !(s.txPhase == .idle)

/-- The six operations that the frame builder excludes while it is transmit-busy (R16): refused with `BUSY`, else `k`. -/
def whenNotBusy (i : Instr) (s : State) (k : State → Result) : Result :=
  if s.busy then .next (callerError .busy (opcode i) s) else k s

/-- The operations that need a Response (R126): refused with `NOT_READY` unless `rx_state = DONE`, else `k` on the Response. -/
def withResponse (i : Instr) (s : State) (k : ByteString → Result) : Result :=
  if s.rxState = .done then
    if s.rxLen ≤ Config.rxMax then k s.response else .fault (.rxIndex s.rxLen)
  else .next (callerError .notReady (opcode i) s)

/-! ## The next op word (R6, R52) -/

/-- The word an agent presents next, and the state with it taken from the order of accepted words (log 1). -/
def takeWord (s : State) : Option (OpWord × State) :=
  match s.inbox with
  | [] => Option.none
  | p :: rest => some (p.word, { s with inbox := rest })

/-- `w` presented next, by the agent whose operation it is, the Host for a reserved word (R61, R77). -/
def presentWord (w : OpWord) (s : State) : State :=
  let agent := match decode w with
    | .ok i => i.agent
    | .error _ => Agent.host
  { s with inbox := { agent := agent, word := w } :: s.inbox }

end Sys2Proof.Machine
end

