-- ==== Sys2Proof/Machine/Crc.lean ====
section
/-! DEFINITION. The CRC unit (40_crc.md): the shift step, the byte and bit steps, the checksum, and `CRC_INIT`, `CRC_BYTE`, `CRC_BIT`. -/

namespace Sys2Proof.Machine

/-- `crc_shift(c)` (R90). -/
def crcShift (c : U16) : U16 := if c.getLsbD 0 then (c >>> 1) ^^^ Config.crcPoly else c >>> 1

/-- `crc_byte(c, b)` (R92): the byte meets bits 7..0, then eight shifts. -/
def crcByte (c : U16) (b : Byte) : U16 :=
  let c0 := c ^^^ b.setWidth 16
  let c1 := crcShift c0
  let c2 := crcShift c1
  let c3 := crcShift c2
  let c4 := crcShift c3
  let c5 := crcShift c4
  let c6 := crcShift c5
  let c7 := crcShift c6
  crcShift c7

/-- `crc_bit(c, d)` (R93). -/
def crcBit (c : U16) (d : Bool) : U16 := crcShift (c ^^^ (if d then 1#16 else 0#16))

/-- The checksum that a register value stands for: `CRC_XOROUT` is 0, so it is the register itself (R94, log 11). -/
def crcResult (c : U16) : U16 := c ^^^ Config.crcXorOut

/-- `crc16(s)` (R94). -/
def crc16 (s : ByteString) : U16 := crcResult (s.foldl crcByte Config.crcInit)

/-- The CRC high byte, `crc[15:8]` (20_memory.md R44). -/
def crcHigh (c : U16) : Byte := c.extractLsb' 8 8

/-- The CRC low byte, `crc[7:0]` (20_memory.md R44). -/
def crcLow (c : U16) : Byte := c.extractLsb' 0 8

/-- `CRC_INIT` (R91). -/
def execCrcInit (s : State) : Result :=
  whenNotBusy .crcInit s fun s => .next (succeed { s with crc := Config.crcInit })

/-- `CRC_BYTE b` (R92). -/
def execCrcByte (b : Byte) (s : State) : Result :=
  whenNotBusy (.crcByte b) s fun s => .next (succeed { s with crc := crcByte s.crc b })

/-- `CRC_BIT d` (R93): the data bit is bit 0 of the operand (30_encoding.md R62). -/
def execCrcBit (d : Byte) (s : State) : Result :=
  whenNotBusy (.crcBit d) s fun s => .next (succeed { s with crc := crcBit s.crc (d.getLsbD 0) })

end Sys2Proof.Machine
end

