-- ==== Sys2Proof/Machine/Operands.lean ====
section
/-! DEFINITION. The byte-string notation of 00_scope.md R7, the field functions of 45_field_decoders.md R161 and the typed overlays of
R166, R167 and R173, as pure functions. -/

namespace Sys2Proof.Machine

/-! ## Predicates and numbers on bytes (R7) -/

/-- `isdigit(b)`. -/
def isDigit (b : Byte) : Bool := decide (0x30 ≤ b.toNat) && decide (b.toNat ≤ 0x39)

/-- `digval(b)`, used only where `isdigit(b)`. -/
def digVal (b : Byte) : Nat := b.toNat - 0x30

/-- `isalnum(b)`: ASCII digits and letters only. -/
def isAlnum (b : Byte) : Bool :=
  isDigit b || (decide (0x41 ≤ b.toNat) && decide (b.toNat ≤ 0x5A)) || (decide (0x61 ≤ b.toNat) && decide (b.toNat ≤ 0x7A))

/-- A byte of 0x80 or above is not ASCII (R12, R101). -/
def notAscii (b : Byte) : Bool := decide (0x80 ≤ b.toNat)

/-- `alldigits(s)`. -/
def allDigits (s : ByteString) : Bool := s.all isDigit

/-- `num(s)`, most significant digit first (R7, R45). -/
def num (s : ByteString) : Nat := s.foldl (fun n b => 10 * n + digVal b) 0

/-- The ASCII digit of a value 0 to 9. -/
def digit (n : Nat) : Byte := BitVec.ofNat 8 (0x30 + n)

/-- `dec3(n)`, for `0 <= n <= 999`. -/
def dec3 (n : Nat) : ByteString := [digit (n / 100), digit (n / 10 % 10), digit (n % 10)]

/-- `dec2(n)`, for `0 <= n <= 99`. -/
def dec2 (n : Nat) : ByteString := [digit (n / 10), digit (n % 10)]

/-- `s[a:b]` on a byte string. -/
def slice (s : ByteString) (a b : Nat) : ByteString := (s.take b).drop a

/-- `s[i]` on a byte string; used only where `i < len(s)`. -/
def byteAt (s : ByteString) (i : Nat) : Byte := s.getD i 0x00#8

/-- `|a - b|` of two non-negative integers. -/
def absDiff (a b : Nat) : Nat := (a - b) + (b - a)

/-- The comma, the one field separator (30_encoding.md R75). -/
def comma : Byte := 0x2C#8

/-- `split(s, c)`: `k` occurrences of `c` give `k + 1` byte strings (R7, D26). -/
def split (c : Byte) : ByteString → List ByteString
  | [] => [[]]
  | b :: s =>
    if b = c then [] :: split c s
    else match split c s with
      | [] => [[b]]
      | f :: fs => (b :: f) :: fs

/-- The slices of `rx` that the fields of a payload are, the first field at `off`: each later one starts one comma further (R171). -/
def fieldSlices (off : Nat) : List ByteString → List Slice
  | [] => []
  | f :: fs => { off := off, len := f.length } :: fieldSlices (off + f.length + 1) fs

/-- The text that a slice of a Response names (R31). -/
def Slice.text (raw : ByteString) (t : Slice) : ByteString := slice raw t.off (t.off + t.len)

/-! ## Fields (R161) -/

/-- `numfield(f)`; `none` is the spec's `null`. -/
def numField (f : ByteString) : Option Nat := if !f.isEmpty && allDigits f then some (num f) else none

/-- `flagfield(f)`: true exactly for the single byte 0x31. -/
def flagField (f : ByteString) : Bool := f == [0x31#8]

/-- Field `i` of a split payload; used only where it exists. -/
def fieldAt (fields : List ByteString) (i : Nat) : ByteString := fields.getD i []

/-! ## Enumerations of codes (R164, R167) -/

/-- The working-mode table (R164). -/
def modeName (code : Nat) : ModeName :=
  match code with
  | 0 => .powerOn
  | 1 => .standby
  | 2 => .bypass
  | 3 => .battery
  | 4 => .fault
  | 5 => .hybrid
  | _ => .unknown

/-- The MPPT state of a field (R167). -/
def mpptOf (f : ByteString) : Mppt :=
  match numField f with
  | some 0 => .abnormal
  | some 1 => .normal
  | some 2 => .charging
  | _ => .unknown

/-- The direction of a field (R167), the names of codes 1 and 2 from `names`. -/
def directionOf (names : DirField → DirCode → ByteString) (d : DirField) (f : ByteString) : Direction :=
  match numField f with
  | some 0 => .doNothing
  | some 1 => .named (names d .one)
  | some 2 => .named (names d .two)
  | _ => .unknown

/-! ## The general-status overlay (R166) -/

/-- The overlay value of one entry. -/
def gsValue (names : DirField → DirCode → ByteString) (k : GsKind) (f : ByteString) : GsValue :=
  match k with
  | .int => .int (numField f)
  | .tenth => .tenth (numField f)
  | .flag => .flag (flagField f)
  | .mppt => .mppt (mpptOf f)
  | .dir d => .dir (directionOf names d f)

/-- A kind whose value is a number, so that a field that is none makes the value `null` (R166, log 8). -/
def gsNumeric : GsKind → Bool
  | .int => true
  | .tenth => true
  | .flag => false
  | .mppt => false
  | .dir _ => false

/-- `f[index]` of an entry; where the payload lacks that field, the free value `missing` (log 23). -/
def gsField (missing : GsEntry → List ByteString → Option ByteString) (fields : List ByteString) (e : GsEntry) :
    Option ByteString :=
  if e.index < fields.length then some (fieldAt fields e.index) else missing e fields

/-- The overlay value of one entry of `GS_MAP`. -/
def gsEntryValue (names : DirField → DirCode → ByteString) (missing : GsEntry → List ByteString → Option ByteString)
    (fields : List ByteString) (e : GsEntry) : GsValue :=
  match gsField missing fields e with
  | some f => gsValue names e.kind f
  | none => .absent

/-- The field of one entry makes its overlay value `null`, with the warning of R166: a numeric kind whose field is no number. -/
def gsEntryFails (missing : GsEntry → List ByteString → Option ByteString) (fields : List ByteString) (e : GsEntry) : Bool :=
  match gsField missing fields e with
  | some f => gsNumeric e.kind && (numField f).isNone
  | none => false

/-- The typed overlay of the general status: one value for each entry of `GS_MAP`. -/
def gsOverlay (m : List GsEntry) (names : DirField → DirCode → ByteString)
    (missing : GsEntry → List ByteString → Option ByteString) (fields : List ByteString) : List (ByteString × GsValue) :=
  m.map fun e => (e.name, gsEntryValue names missing fields e)

/-- Some numeric entry's field is no number (R166). -/
def gsFieldFails (m : List GsEntry) (missing : GsEntry → List ByteString → Option ByteString) (fields : List ByteString) : Bool :=
  m.any (gsEntryFails missing fields)

/-! ## The rated-information overlay (R172, R173) -/

/-- The value of an `ENUM` entry: the table's name, or `UNKNOWN`. -/
def enumValue (enums : EnumTable → Nat → Option ByteString) (t : EnumTable) (f : ByteString) : RatedValue :=
  match numField f with
  | none => .unknown
  | some c =>
    match enums t c with
    | some name => .named name
    | none => .unknown

/-- The overlay value of one entry, `null` where the payload lacks the field (R172). -/
def ratedValue (enums : EnumTable → Nat → Option ByteString) (fields : List ByteString) (e : RatedEntry) : RatedValue :=
  if e.index < fields.length then
    match e.kind with
    | .int => .int (numField (fieldAt fields e.index))
    | .tenth => .tenth (numField (fieldAt fields e.index))
    | .enum t => enumValue enums t (fieldAt fields e.index)
  else .absent

/-- A kind whose value is a number. -/
def ratedNumeric : RatedKind → Bool
  | .int => true
  | .tenth => true
  | .enum _ => false

/-- The entries of `RATED_MAP` that name a field with a meaning (R172, log 7). -/
def ratedAdmitted (m : List RatedEntry) : List RatedEntry := m.filter fun e => decide (e.index < Config.ratedMaxFields)

/-- The typed overlay of the rated information. -/
def ratedOverlay (m : List RatedEntry) (enums : EnumTable → Nat → Option ByteString) (fields : List ByteString) :
    List (ByteString × RatedValue) :=
  (ratedAdmitted m).map fun e => (e.name, ratedValue enums fields e)

/-- Some numeric entry's field is in the payload and is no number (R173, 60_exceptions.md R224). -/
def ratedFieldFails (m : List RatedEntry) (fields : List ByteString) : Bool :=
  (ratedAdmitted m).any fun e =>
    decide (e.index < fields.length) && ratedNumeric e.kind && (numField (fieldAt fields e.index)).isNone

end Sys2Proof.Machine
end

