-- ==== Sys2Proof/Machine/Builder.lean ====
section
/-! DEFINITION. The frame builder (41_frame_builder.md): the function `buildFrame` and the operations `CMD_CLEAR`, `CMD_PUSH`,
`TX_START`, `TX_POP`. -/

namespace Sys2Proof.Machine

/-! ## The function (R100) -/

/-- The marker bytes that start a frame (R104). -/
def isMarker (m : Byte) : Bool := m == Config.markRequest || m == Config.markWrite || m == Config.markData

/-- `total_length`: the command, the CRC and the terminator (R100, R105). -/
def totalLength (n : Nat) : Nat := n + Config.trailerLen

/-- The bytes the CRC covers: marker, length field and command (30_encoding.md R71). -/
def frameHead (m : Byte) (c : ByteString) : ByteString := [Config.mark0, m] ++ dec3 (totalLength c.length) ++ c

/-- `buildFrame(m, c)` (R100); a frame only for a marker, at most 996 bytes and ASCII bytes (R101, V9). -/
def buildFrame (m : Byte) (c : ByteString) : ByteString :=
  let k := crc16 (frameHead m c)
  frameHead m c ++ [crcHigh k, crcLow k, Config.terminator]

/-! ## Loading the command (R102, R103) -/

/-- `CMD_CLEAR` (R102). -/
def execCmdClear (s : State) : Result :=
  whenNotBusy .cmdClear s fun s => .next (succeed { s with cmdLen := 0, cmdOvf := false, cmdBad := false })

/-- `CMD_PUSH b` (R103). -/
def execCmdPush (b : Byte) (s : State) : Result :=
  whenNotBusy (.cmdPush b) s fun s =>
    if s.cmdLen < Config.cmdMax then
      .next (succeed { s with cmd := Memory.write s.cmd s.cmdLen b, cmdLen := s.cmdLen + 1, cmdBad := s.cmdBad || notAscii b })
    else .next (callerError .cmdTooLong (opcode (.cmdPush b)) { s with cmdOvf := true })

/-! ## Starting a frame (R104) -/

/-- `TX_START m` (R104), the checks in the rule's order. -/
def execTxStart (m : Byte) (s : State) : Result :=
  whenNotBusy (.txStart m) s fun s =>
    if isMarker m = false then .next (callerError .badMarker (opcode (.txStart m)) s)
    else if s.cmdOvf then .next (callerError .cmdTooLong (opcode (.txStart m)) s)
    else if s.cmdBad then .next (callerError .cmdNotAscii (opcode (.txStart m)) s)
    else .next (succeed { s with txMarker := m, txIdx := 0, crc := Config.crcInit, txStream := [], txPhase := .m0 })

/-! ## Emitting the frame (R105 to R112) -/

/-- `emit(b)` (R7, R17). -/
def emit (b : Byte) (s : State) : State := { s with txOut := b, txStream := s.txStream ++ [b] }

/-- A byte of the header or the body: emitted, absorbed by the CRC register, on to the next phase (R106 to R110). -/
def emitCovered (b : Byte) (p : TxPhase) (s : State) : State :=
  succeed { emit b s with crc := crcByte s.crc b, txPhase := p }

/-- A byte of the trailer: emitted, the CRC register unchanged, on to the next phase (R111, R112). -/
def emitTrailer (b : Byte) (p : TxPhase) (s : State) : State := succeed { emit b s with txPhase := p }

/-- The phase after the length field (R108): `BODY` is never entered with nothing to send. -/
def afterLength (s : State) : TxPhase := if s.cmdLen = 0 then .crch else .body

/-- Phase `BODY` (R110); an index outside the buffer cannot arise (R41) and faults. -/
def popBody (s : State) : Result :=
  if s.txIdx < Config.cmdMax then
    .next { emitCovered (Memory.read s.cmd s.txIdx) (if s.txIdx + 1 = s.cmdLen then .crch else .body) s with txIdx := s.txIdx + 1 }
  else .fault (.cmdIndex s.txIdx)

/-- `TX_POP` (R105): one of R106 to R112 by phase. -/
def execTxPop (s : State) : Result :=
  match s.txPhase with
  | .idle => .next (callerError .txIdle (opcode .txPop) s)
  | .m0 => .next (emitCovered Config.mark0 .m1 s)
  | .m1 => .next (emitCovered s.txMarker .l2 s)
  | .l2 => .next (emitCovered (digit (totalLength s.cmdLen / 100)) .l1 s)
  | .l1 => .next (emitCovered (digit (totalLength s.cmdLen / 10 % 10)) .l0 s)
  | .l0 => .next (emitCovered (digit (totalLength s.cmdLen % 10)) (afterLength s) s)
  | .body => popBody s
  | .crch => .next (emitTrailer (crcHigh (crcResult s.crc)) .crcl s)
  | .crcl => .next (emitTrailer (crcLow (crcResult s.crc)) .term s)
  | .term => .next (emitTrailer Config.terminator .idle s)

end Sys2Proof.Machine
end

