-- ==== Sys2Proof/Machine/Capture.lean ====
section
/-! DEFINITION. The capture unit (42_rx_capture.md): `RX_CLEAR`, `RX_BYTE`, `RX_TIMEOUT`. -/

namespace Sys2Proof.Machine

/-- `RX_CLEAR` (R121): no precondition, no byte of `rx` written. -/
def execRxClear (s : State) : Result :=
  .next (succeed { s with
    rxLen := 0, rxState := .capturing, rxEnd := .none, verdict := .cleared, pay := .cleared, ack := .none, record := .cleared })

/-- A byte stored while capturing (R122): the terminator ends the capture, else the 1000th byte does. -/
def storeByte (b : Byte) (s : State) : State :=
  let t := { s with rx := Memory.write s.rx s.rxLen b, rxLen := s.rxLen + 1 }
  if b = Config.terminator then { t with rxState := .done, rxEnd := .term }
  else if s.rxLen + 1 = Config.rxMax then { t with rxState := .done, rxEnd := .overflow }
  else t

/-- `RX_BYTE b` (R122, R123): stored while capturing, dropped otherwise; `err` is never written. An index outside the buffer cannot
arise (R41) and faults. -/
def execRxByte (b : Byte) (s : State) : Result :=
  if s.rxState = .capturing then
    if s.rxLen < Config.rxMax then .next (storeByte b s) else .fault (.rxIndex s.rxLen)
  else .next s

/-- `RX_TIMEOUT` (R124): an error only when no byte arrived; nothing at all unless capturing. -/
def execRxTimeout (s : State) : Result :=
  if s.rxState = .capturing then
    let t := { s with rxState := .done, rxEnd := .timeout }
    if s.rxLen = 0 then .next (raiseErr .timeout .noResponse (opcode .rxTimeout) t) else .next (succeed t)
  else .next s

end Sys2Proof.Machine
end

