-- ==== Sys2Proof/Machine/Control.lean ====
section
/-! DEFINITION. `NOP` and `RESET` (70_reset_and_hazards.md R251, R253). -/

namespace Sys2Proof.Machine

/-- `NOP` (R253): it writes nothing, not even `err`. -/
def execNop (s : State) : Result := .next s

/-- `RESET` (R251): everything to its power-on value but the log. The buffers' contents, unspecified after a reset, are not written
(20_memory.md R42, log 4); the words that the agents have yet to present are not the block's. -/
def execReset (s : State) : Result :=
  .next (succeed { State.reset with diag := s.diag, cmd := s.cmd, rx := s.rx, inbox := s.inbox })

end Sys2Proof.Machine
end

