-- ==== Sys2Proof/Machine/Flags.lean ====
section
/-! DEFINITION. The verdicts of the block, which stand where other hardware has flags: the validator's and the extractor's pure functions
(43_validator_extractor.md R131, R138), the acknowledgement prefix (44_ack.md R150), and the writing of the verdict registers. -/

namespace Sys2Proof.Machine

/-! ## The validator (R131) -/

/-- The record `(ok, reason, soft, noterm, L)` that `validate` returns. -/
structure Finding where
  ok : Bool
  reason : Reason
  soft : Bool
  noterm : Bool
  declared : Nat
  deriving DecidableEq, Repr

/-- A fatal finding: the other verdicts are 0 (V5). -/
def fatal (r : Reason) (declared : Nat) : Finding :=
  { ok := false, reason := r, soft := false, noterm := false, declared := declared }

/-- The length field `raw[2:5]`. -/
def lengthField (raw : ByteString) : ByteString := slice raw 2 5

/-- `|n - (5 + L)|`. -/
def lengthError (raw : ByteString) (declared : Nat) : Nat := absDiff raw.length (Config.headerLen + declared)

/-- The terminator is present when the last byte is 0x0D (R135). -/
def endsWithTerminator (raw : ByteString) : Bool := byteAt raw (raw.length - 1) == Config.terminator

/-- `validate(raw)` with `LEN_TOLERANCE = T` (R131). -/
def validateAt (T : Nat) (raw : ByteString) : Finding :=
  if raw.length = 0 then fatal .empty 0
  else if raw.length < 2 ∨ byteAt raw 0 ≠ Config.mark0 ∨ byteAt raw 1 ≠ Config.markData then fatal .marker 0
  else if raw.length < 5 ∨ allDigits (lengthField raw) = false then fatal .lenField 0
  else
    let L := num (lengthField raw)
    let d := lengthError raw L
    if d > T then fatal .length L
    else { ok := true, reason := .none, soft := decide (1 ≤ d), noterm := !endsWithTerminator raw, declared := L }

/-- `validate(raw)` of the block as configured. -/
def validate (raw : ByteString) : Finding := validateAt Config.lenTolerance raw

/-- The error detail of a fatal reason (R130). -/
def Reason.detail : Reason → Detail
  | .none => .none
  | .empty => .vEmpty
  | .marker => .vMarker
  | .lenField => .vLenField
  | .length => .vLength

/-- The validator's registers for a finding (R130). -/
def Finding.regs (v : Finding) : VerdictRegs :=
  { valid := true, ok := v.ok, soft := v.soft, noterm := v.noterm, reason := v.reason, declLen := v.declared,
    expTotal := if v.reason = .none ∨ v.reason = .length then Config.headerLen + v.declared else 0 }

/-! ## The extractor (R138) -/

/-- The record `(len, fallback)` naming the payload `raw[5 : 5 + len]`. -/
structure Cut where
  len : Nat
  fallback : Bool
  deriving DecidableEq, Repr

/-- The length of the trailer that the fallback removes: 3 with a terminator, 2 without (R140). -/
def trailerCut (raw : ByteString) : Nat := if endsWithTerminator raw then 3 else 2

/-- The declared length is trustworthy (R138, R139). -/
def trusted (trust : Trust) (raw : ByteString) (declared : Nat) : Bool :=
  (lengthError raw declared == 0 || trust == .withinTolerance) && decide (Config.trailerLen ≤ declared) &&
    decide (Config.headerLen + (declared - Config.trailerLen) ≤ raw.length)

/-- `extract(raw)` with `LEN_TOLERANCE = T` and `TRUST_DECLARED = trust` (R138); `none` is the spec's `null`. -/
def extractAt (T : Nat) (trust : Trust) (raw : ByteString) : Option Cut :=
  let v := validateAt T raw
  if v.ok then
    if trusted trust raw v.declared then some { len := v.declared - Config.trailerLen, fallback := false }
    else if raw.length < Config.headerLen + trailerCut raw then none
    else some { len := raw.length - Config.headerLen - trailerCut raw, fallback := true }
  else none

/-- `extract(raw)` of the block as configured. -/
def extract (raw : ByteString) : Option Cut := extractAt Config.lenTolerance Config.trustDeclared raw

/-- The extractor's registers for a result (R137). -/
def payRegs : Option Cut → PayRegs
  | none => { valid := true, isNull := true, off := 0, len := 0, fallback := false }
  | some x => { valid := true, isNull := false, off := Config.headerLen, len := x.len, fallback := x.fallback }

/-- The payload `raw[5 : 5 + len]`. -/
def payloadOf (raw : ByteString) (len : Nat) : ByteString := slice raw Config.headerLen (Config.headerLen + len)

/-! ## The acknowledgement prefix (44_ack.md R150) -/

/-- The Response begins with `^1`; no other byte is looked at. -/
def isAck (raw : ByteString) : Bool :=
  decide (2 ≤ raw.length) && byteAt raw 0 == Config.mark0 && byteAt raw 1 == Config.markAck

/-! ## Writing the verdicts (R130, R137) -/

/-- Everything `VALIDATE` does with a Response, logged under the opcode `op` of the operation that runs it (R130). -/
def validatePart (op : Byte) (raw : ByteString) (s : State) : State :=
  let v := validate raw
  let t := { s with verdict := v.regs }
  if v.ok then warnIf v.noterm .wNoterm op (warnIf v.soft .wLengthSoft op (succeed t))
  else raiseErr .protocol v.reason.detail op t

/-- Everything `EXTRACT` does with a Response, logged under the opcode `op` of the operation that runs it (R137). -/
def extractPart (op : Byte) (raw : ByteString) (s : State) : State :=
  let x := extract raw
  let t := { validatePart op raw s with pay := payRegs x }
  match x with
  | none => if (validate raw).ok then raiseErr .protocol .xShort op t else t
  | some c => warnIf c.fallback .xFallback op t

end Sys2Proof.Machine
end

