-- ==== Sys2Proof/Machine/Decoders.lean ====
section
/-! DEFINITION. The field decoders (45_field_decoders.md): the common frame R160 and one meaning per `DEC_*` operation. Text fields are
slices of `rx`; the payload's first byte is at offset 5. -/

namespace Sys2Proof.Machine

/-! ## Writing the record (R30) -/

/-- The register group `rec`, written whole. -/
def setRecord (tag : RecTag) (isNull isPartial : Bool) (f : Fields) (s : State) : State :=
  { s with record := { tag := tag, isNull := isNull, isPartial := isPartial, fields := f } }

/-- A full record: `rec_null = 0`, `rec_partial = 0`, `err = NONE` (R162 (a)). -/
def fullRecord (tag : RecTag) (f : Fields) (s : State) : State := succeed (setRecord tag false false f s)

/-- A partial record that an error goes with: fields are missing (R162 (b)). -/
def shortRecord (tag : RecTag) (f : Fields) (d : Detail) (op : Byte) (s : State) : State :=
  raiseErr .parse d op (setRecord tag false true f s)

/-- A partial record by a fallback that the source sanctions: a warning, `err = NONE` (R162 (b)). -/
def fallbackRecord (tag : RecTag) (f : Fields) (d : Detail) (op : Byte) (s : State) : State :=
  warnDiag d op (succeed (setRecord tag false true f s))

/-- No record (R162 (c)): no field holds a value (R37), nor do those that R165 and R168 name before they give up (log 9). -/
def noRecord (tag : RecTag) (d : Detail) (op : Byte) (s : State) : State :=
  raiseErr .parse d op (setRecord tag true false .none s)

/-- The decoded record: nothing when `rec_tag = NONE` or `rec_null = 1` (R30, R37). -/
def State.decoded (s : State) : Option Fields :=
  if s.record.tag = .none ∨ s.record.isNull = true then none else some s.record.fields

/-! ## The common frame (R160) -/

/-- Every decoder but `DEC_SCHEDULE` and `DEC_ENERGY`: the extractor part, then the decoder's own rule on a payload that is not empty. -/
def withPayload (i : Instr) (tag : RecTag) (s : State) (k : ByteString → State → State) : Result :=
  withResponse i s fun raw =>
    let t := extractPart (opcode i) raw s
    if t.pay.isNull then .next (setRecord tag true false .none t)
    else if t.pay.len = 0 then .next (noRecord tag .pShort (opcode i) t)
    else .next (k (payloadOf raw t.pay.len) t)

/-- The fields of a comma-separated payload (R165). -/
def payloadFields (p : ByteString) : List ByteString := split comma p

/-- How many comma-separated fields the payload of the Response now held has (R33), whether or not a decoder gave a record: none
without a payload. The list decoders give it as `nfields`. -/
def State.payloadFieldCount (s : State) : Option Nat :=
  if s.pay.valid && !s.pay.isNull then some (payloadFields (payloadOf s.response s.pay.len)).length else none

/-- `field[i] <- (off(i), len(f[i]))` (R165, R171). -/
def payloadSlices (p : ByteString) : List Slice := fieldSlices Config.headerLen (payloadFields p)

/-- The whole payload as a text field. -/
def wholePayload (p : ByteString) : Slice := { off := Config.headerLen, len := p.length }

/-! ## Identity (R163, R170, R171) -/

/-- `DEC_PROTOCOL_ID` on its payload (R163). -/
def decodeProtocolId (p : ByteString) (s : State) : State := fullRecord .protocolId (.protocolId (wholePayload p)) s

/-- `DEC_PROTOCOL_ID` (R163). -/
def execDecProtocolId (s : State) : Result := withPayload .decProtocolId .protocolId s decodeProtocolId

/-- `DEC_SERIAL` on its payload (R170): the substring is cut by the two-digit prefix, else the whole payload is the identifier. -/
def decodeSerial (p : ByteString) (s : State) : State :=
  if 2 ≤ p.length ∧ allDigits (slice p 0 2) = true then
    let N := num (slice p 0 2)
    if min N (p.length - 2) = N then
      fullRecord .serial (.serial (some N) { off := Config.headerLen + 2, len := N } true) s
    else fallbackRecord .serial (.serial (some N) (wholePayload p) false) .pLengthMismatch (opcode .decSerial) s
  else fallbackRecord .serial (.serial none (wholePayload p) false) .pFormat (opcode .decSerial) s

/-- `DEC_SERIAL` (R170). -/
def execDecSerial (s : State) : Result := withPayload .decSerial .serial s decodeSerial

/-- `DEC_FIRMWARE` on its payload (R171). -/
def decodeFirmware (p : ByteString) (s : State) : State :=
  let f := payloadSlices p
  let main := f.getD 0 { off := Config.headerLen, len := 0 }
  if 3 ≤ f.length then fullRecord .firmware (.firmware main f[1]? f[2]?) s
  else shortRecord .firmware (.firmware main f[1]? f[2]?) .pShort (opcode .decFirmware) s

/-- `DEC_FIRMWARE` (R171). -/
def execDecFirmware (s : State) : Result := withPayload .decFirmware .firmware s decodeFirmware

/-! ## Working mode (R164) -/

/-- The literal `MOD,` (R164). -/
def modePrefix : ByteString := [0x4D#8, 0x4F#8, 0x44#8, 0x2C#8]

/-- `DEC_MODE` on its payload (R164). -/
def decodeMode (p : ByteString) (s : State) : State :=
  if p.length < 5 then noRecord .mode .pShort (opcode .decMode) s
  else if slice p 0 4 ≠ modePrefix ∨ isDigit (byteAt p 4) = false then noRecord .mode .pFormat (opcode .decMode) s
  else
    let code := digVal (byteAt p 4)
    fullRecord .mode (.mode code (modeName code)) s

/-- `DEC_MODE` (R164). -/
def execDecMode (s : State) : Result := withPayload .decMode .mode s decodeMode

/-! ## General status (R165 to R167) -/

/-- `DEC_STATUS` on its payload, the tables and the free value of log 23 as arguments. -/
def decodeStatusWith (m : List GsEntry) (names : DirField → DirCode → ByteString)
    (missing : GsEntry → List ByteString → Option ByteString) (p : ByteString) (s : State) : State :=
  let f := payloadFields p
  if f.length < Config.gsMinFields then noRecord .status .pShort (opcode .decStatus) s
  else
    let fails := gsFieldFails m missing f
    warnIf fails .pField (opcode .decStatus)
      (succeed (setRecord .status false fails (.status f.length (payloadSlices p) (gsOverlay m names missing f)) s))

/-- `DEC_STATUS` on its payload (R165). -/
def decodeStatus (p : ByteString) (s : State) : State :=
  decodeStatusWith Config.gsMap Config.directionNames Config.gsMissing p s

/-- `DEC_STATUS` (R165). -/
def execDecStatus (s : State) : Result := withPayload .decStatus .status s decodeStatus

/-! ## Fault and warning status (R168, R169) -/

/-- `fault_flag[1..16]` (R168), flag 1 first. -/
def faultFlags (f : List ByteString) : List Bool := (List.range 16).map fun i => flagField (fieldAt f (i + 1))

/-- `DEC_FAULT` on its payload (R168). -/
def decodeFault (p : ByteString) (s : State) : State :=
  let f := payloadFields p
  if f.length < Config.faultMinFields then noRecord .fault .pShort (opcode .decFault) s
  else
    let code := numField (fieldAt f 0)
    let record := Fields.fault f.length (payloadSlices p) code (faultFlags f)
    if code = none then shortRecord .fault record .pField (opcode .decFault) s else fullRecord .fault record s

/-- `DEC_FAULT` (R168). -/
def execDecFault (s : State) : Result := withPayload .decFault .fault s decodeFault

/-- The description of a record's fault code, none where the table lacks the code (R169). -/
def faultDescription : Fields → Option ByteString
  | .fault _ _ (some code) _ => Config.faultTable code
  | _ => none

/-- The names of the flags that a fault record raises, flag 1 first (R169). -/
def faultNames : Fields → List ByteString
  | .fault _ _ _ flags => (flags.zipIdx.filter fun x => x.1).map fun x => Config.faultFlagNames (x.2 + 1)
  | _ => []

/-! ## Rated information (R172, R173) -/

/-- `DEC_RATED` on its payload, the tables as arguments: the overlay's warning stands before the error (60_exceptions.md R224). -/
def decodeRatedWith (m : List RatedEntry) (enums : EnumTable → Nat → Option ByteString) (p : ByteString) (s : State) : State :=
  let f := payloadFields p
  let fails := ratedFieldFails m f
  let short := decide (f.length < Config.ratedMinFields)
  let t := warnIf fails .pField (opcode .decRated)
    (succeed (setRecord .rated false (fails || short) (.rated f.length (payloadSlices p) (ratedOverlay m enums f)) s))
  if short then raiseErr .parse .pShort (opcode .decRated) t else t

/-- `DEC_RATED` on its payload (R172). -/
def decodeRated (p : ByteString) (s : State) : State := decodeRatedWith Config.ratedMap Config.ratedEnums p s

/-- `DEC_RATED` (R172). -/
def execDecRated (s : State) : Result := withPayload .decRated .rated s decodeRated

/-! ## Machine model (R174) -/

/-- The fixed text `Unknown model` (R174). -/
def unknownModel : ByteString :=
  [0x55#8, 0x6E#8, 0x6B#8, 0x6E#8, 0x6F#8, 0x77#8, 0x6E#8, 0x20#8, 0x6D#8, 0x6F#8, 0x64#8, 0x65#8, 0x6C#8]

/-- `DEC_MODEL` on its payload, the table as an argument. -/
def decodeModelWith (table : ByteString → Option ByteString) (p : ByteString) (s : State) : State :=
  if p.length < 2 then noRecord .model .pShort (opcode .decModel) s
  else
    let code : Slice := { off := Config.headerLen, len := 2 }
    match table (slice p 0 2) with
    | some name => fullRecord .model (.model code true name) s
    | none => fullRecord .model (.model code false unknownModel) s

/-- `DEC_MODEL` on its payload (R174). -/
def decodeModel (p : ByteString) (s : State) : State := decodeModelWith Config.modelTable p s

/-- `DEC_MODEL` (R174). -/
def execDecModel (s : State) : Result := withPayload .decModel .model s decodeModel

/-! ## Time (R175) -/

/-- `t_iso`: `YYYY-MM-DDThh:mm:ss` from the payload's own digits (R175, D33). -/
def isoText (p : ByteString) : ByteString :=
  slice p 0 4 ++ [0x2D#8] ++ slice p 4 6 ++ [0x2D#8] ++ slice p 6 8 ++ [0x54#8] ++
    slice p 8 10 ++ [0x3A#8] ++ slice p 10 12 ++ [0x3A#8] ++ slice p 12 14

/-- `DEC_TIME` on its payload (R175): no calendar check. -/
def decodeTime (p : ByteString) (s : State) : State :=
  if p.length < 14 then noRecord .time .pShort (opcode .decTime) s
  else if allDigits (slice p 0 14) = false then noRecord .time .pFormat (opcode .decTime) s
  else
    fullRecord .time
      (.time (num (slice p 0 4)) (num (slice p 4 6)) (num (slice p 6 8)) (num (slice p 8 10)) (num (slice p 10 12))
        (num (slice p 12 14)) (isoText p)) s

/-- `DEC_TIME` (R175). -/
def execDecTime (s : State) : Result := withPayload .decTime .time s decodeTime

/-! ## Schedule (R176, R177) -/

/-- The default window, 00:00 to 23:59 and enabled (R177), with `s_defaulted = 1`. -/
def defaultSchedule : Fields := .schedule 0 0 23 59 true true

/-- The first nine bytes are eight digits and a `0` or a `1` (R176). -/
def scheduleShape (p : ByteString) : Bool :=
  decide (9 ≤ p.length) && allDigits (slice p 0 8) && (byteAt p 8 == 0x30#8 || byteAt p 8 == 0x31#8)

/-- The window that a well-shaped payload names (R176). -/
def scheduleOf (p : ByteString) : Fields :=
  .schedule (num (slice p 0 2)) (num (slice p 2 4)) (num (slice p 4 6)) (num (slice p 6 8)) (byteAt p 8 == 0x31#8) false

/-- `DEC_SCHEDULE` on a payload, the empty one included: never an error (R176). -/
def decodeSchedule (p : ByteString) (s : State) : State :=
  if scheduleShape p then fullRecord .schedule (scheduleOf p) s
  else warnDiag (if p.length < 9 then .pShort else .pFormat) (opcode .decSchedule) (fullRecord .schedule defaultSchedule s)

/-- `DEC_SCHEDULE` (R176): also without a payload it gives the default and ends with `err = NONE`. -/
def execDecSchedule (s : State) : Result :=
  withResponse .decSchedule s fun raw =>
    let t := extractPart (opcode .decSchedule) raw s
    if t.pay.isNull then .next (fullRecord .schedule defaultSchedule t)
    else .next (decodeSchedule (payloadOf raw t.pay.len) t)

/-- The text `HH:MM` of a schedule time (R176). -/
def timeText (h m : Nat) : ByteString := dec2 h ++ [0x3A#8] ++ dec2 m

/-! ## Energy (R178) -/

/-- The digit run of the leftmost match of `D[0-9]{3}([0-9]+)` (R178, D35): the first `D` with four digits after it, and all digits
from the fourth on. -/
def energyRun : ByteString → Option ByteString
  | [] => none
  | b :: s =>
    if b = 0x44#8 ∧ 4 ≤ s.length ∧ allDigits (s.take 4) = true then some ((s.drop 3).takeWhile isDigit) else energyRun s

/-- `DEC_ENERGY` on the whole Response: neither validator nor extractor runs (R178). -/
def decodeEnergy (raw : ByteString) (s : State) : State :=
  match energyRun (raw.filter isAlnum) with
  | none => noRecord .energy .pFormat (opcode .decEnergy) s
  | some run => fullRecord .energy (.energy (num run) (num run / 1000) (num run % 1000)) s

/-- `DEC_ENERGY` (R178). -/
def execDecEnergy (s : State) : Result :=
  withResponse .decEnergy s fun raw => .next (decodeEnergy raw s)

end Sys2Proof.Machine
end

