-- ==== Sys2Proof/Machine/Validator.lean ====
section
/-! DEFINITION. `VALIDATE`, `EXTRACT` (43_validator_extractor.md R130, R137) and `ACK_CHECK` (44_ack.md R150). -/

namespace Sys2Proof.Machine

/-- `VALIDATE` (R130). -/
def execValidate (s : State) : Result :=
  withResponse .validate s fun raw => .next (validatePart (opcode .validate) raw s)

/-- `EXTRACT` (R137). -/
def execExtract (s : State) : Result :=
  withResponse .extract s fun raw => .next (extractPart (opcode .extract) raw s)

/-- `ACK_CHECK` (R150): the two-byte prefix alone decides. -/
def execAckCheck (s : State) : Result :=
  withResponse .ackCheck s fun raw =>
    if isAck raw then .next (succeed { s with ack := .accepted })
    else .next (raiseErr .refused .notAck (opcode .ackCheck) { s with ack := .refused })

end Sys2Proof.Machine
end

