-- ==== Sys2Proof/Machine/Dispatch.lean ====
section
/-! DEFINITION. The meaning of every operation, one arm per constructor of Instr. -/

namespace Sys2Proof.Machine

-- One operation, whichever agent presents it (30_encoding.md R61, R64).
def exec (i : Instr) (s : State) : Host.Outcome State Fault Refusal :=
  match i with
  | .nop => Sys2Proof.Machine.execNop s
  | .reset => Sys2Proof.Machine.execReset s
  | .crcInit => Sys2Proof.Machine.execCrcInit s
  | .crcByte b => Sys2Proof.Machine.execCrcByte b s
  | .crcBit d => Sys2Proof.Machine.execCrcBit d s
  | .cmdClear => Sys2Proof.Machine.execCmdClear s
  | .cmdPush b => Sys2Proof.Machine.execCmdPush b s
  | .txStart m => Sys2Proof.Machine.execTxStart m s
  | .txPop => Sys2Proof.Machine.execTxPop s
  | .rxClear => Sys2Proof.Machine.execRxClear s
  | .rxByte b => Sys2Proof.Machine.execRxByte b s
  | .rxTimeout => Sys2Proof.Machine.execRxTimeout s
  | .validate => Sys2Proof.Machine.execValidate s
  | .extract => Sys2Proof.Machine.execExtract s
  | .ackCheck => Sys2Proof.Machine.execAckCheck s
  | .decProtocolId => Sys2Proof.Machine.execDecProtocolId s
  | .decStatus => Sys2Proof.Machine.execDecStatus s
  | .decMode => Sys2Proof.Machine.execDecMode s
  | .decFault => Sys2Proof.Machine.execDecFault s
  | .decSerial => Sys2Proof.Machine.execDecSerial s
  | .decFirmware => Sys2Proof.Machine.execDecFirmware s
  | .decRated => Sys2Proof.Machine.execDecRated s
  | .decModel => Sys2Proof.Machine.execDecModel s
  | .decTime => Sys2Proof.Machine.execDecTime s
  | .decSchedule => Sys2Proof.Machine.execDecSchedule s
  | .decEnergy => Sys2Proof.Machine.execDecEnergy s

end Sys2Proof.Machine
end

