-- ==== Sys2Proof/Machine/Step.lean ====
section
/-! DEFINITION. One step: the block accepts the op word presented next and performs its operation (00_scope.md R6, 20_memory.md R52). -/

namespace Sys2Proof.Machine

/-- The effect of a word: its operation, or that of a reserved word (30_encoding.md R63). -/
def runWord (w : OpWord) (s : State) : Result :=
  match decode w with
  | .ok i => exec i s
  | .error _ => .next (illegalOp w s)

/-- One step. While no agent presents a word the block waits: nothing changes (log 1). -/
def step (s : State) : Host.Outcome State Fault Refusal :=
  match takeWord s with
  | none => .next s
  | some (w, t) => runWord w t

/-- `s` with the given op word presented next. -/
def State.withFetchWord (s : State) (nbits w : Nat) : State := presentWord (tableWord nbits w) s

end Sys2Proof.Machine
end

