-- ==== Sys2Proof/Machine/Assembly.lean ====
section
/-! DEFINITION. The textual form of an operation sequence (30_encoding.md R77), the pseudo-operations (R78) and the op words of one
exchange (46_host_session.md R200), as data. No step reads this file. -/

namespace Sys2Proof.Machine

/-! ## Mnemonics (R61, R77) -/

/-- The mnemonic of an operation. -/
def mnemonic : Instr → String
  | .nop => "NOP"
  | .reset => "RESET"
  | .crcInit => "CRC_INIT"
  | .crcByte _ => "CRC_BYTE"
  | .crcBit _ => "CRC_BIT"
  | .cmdClear => "CMD_CLEAR"
  | .cmdPush _ => "CMD_PUSH"
  | .txStart _ => "TX_START"
  | .txPop => "TX_POP"
  | .rxClear => "RX_CLEAR"
  | .rxByte _ => "RX_BYTE"
  | .rxTimeout => "RX_TIMEOUT"
  | .validate => "VALIDATE"
  | .extract => "EXTRACT"
  | .ackCheck => "ACK_CHECK"
  | .decProtocolId => "DEC_PROTOCOL_ID"
  | .decStatus => "DEC_STATUS"
  | .decMode => "DEC_MODE"
  | .decFault => "DEC_FAULT"
  | .decSerial => "DEC_SERIAL"
  | .decFirmware => "DEC_FIRMWARE"
  | .decRated => "DEC_RATED"
  | .decModel => "DEC_MODEL"
  | .decTime => "DEC_TIME"
  | .decSchedule => "DEC_SCHEDULE"
  | .decEnergy => "DEC_ENERGY"

/-- How an operation is written: without an operand, with a byte, or with the digit of a bit (R77). -/
inductive Written where
  | plain (i : Instr)
  | byte (f : Byte → Instr)
  | bit (f : Byte → Instr)

/-- The operations by their mnemonics. -/
def written : List Written :=
  [.plain .nop, .plain .reset, .plain .crcInit, .byte .crcByte, .bit .crcBit, .plain .cmdClear, .byte .cmdPush, .byte .txStart,
    .plain .txPop, .plain .rxClear, .byte .rxByte, .plain .rxTimeout, .plain .validate, .plain .extract, .plain .ackCheck] ++
  [.plain .decProtocolId, .plain .decStatus, .plain .decMode, .plain .decFault, .plain .decSerial, .plain .decFirmware,
    .plain .decRated, .plain .decModel, .plain .decTime, .plain .decSchedule, .plain .decEnergy]

/-- The mnemonic of a way of writing. -/
def Written.name : Written → List Char
  | .plain i => (mnemonic i).toList
  | .byte f => (mnemonic (f 0x00#8)).toList
  | .bit f => (mnemonic (f 0x00#8)).toList

/-! ## Reading a line (R77) -/

/-- The value of a hexadecimal digit. -/
def hexVal (c : Char) : Option Nat :=
  if '0' ≤ c ∧ c ≤ '9' then some (c.toNat - 48)
  else if 'a' ≤ c ∧ c ≤ 'f' then some (c.toNat - 87)
  else if 'A' ≤ c ∧ c ≤ 'F' then some (c.toNat - 55)
  else none

/-- A byte operand: two hexadecimal digits after `0x`, or an ASCII character in single quotes. -/
def readByte : List Char → Option Byte
  | ['0', 'x', h, l] =>
    match hexVal h, hexVal l with
    | some a, some b => some (BitVec.ofNat 8 (16 * a + b))
    | _, _ => none
  | ['\'', c, '\''] => if c.toNat < 128 then some (BitVec.ofNat 8 c.toNat) else none
  | _ => none

/-- A bit operand: the digit `0` or `1`. -/
def readBit : List Char → Option Byte
  | ['0'] => some 0x00#8
  | ['1'] => some 0x01#8
  | _ => none

/-- The operand, read the way the operation is written. -/
def Written.read : Written → Option (List Char) → Option Instr
  | .plain i, none => some i
  | .byte f, some t => (readByte t).map f
  | .bit f, some t => (readBit t).map f
  | _, _ => none

/-- The agent of a prefix. -/
def readAgent : List Char → Option Agent
  | ['H', ':'] => some .host
  | ['L', ':'] => some .line
  | ['T', ':'] => some .timer
  | _ => none

/-- The blank-separated words of a line, up to its comment; a quoted character is one word, be it a blank or a semicolon. -/
def wordsOf : List Char → List Char → List (List Char)
  | acc, [] => if acc = [] then [] else [acc.reverse]
  | acc, '\'' :: c :: '\'' :: t => wordsOf ('\'' :: c :: '\'' :: acc) t
  | acc, c :: t =>
    if c = ';' then (if acc = [] then [] else [acc.reverse])
    else if c = ' ' ∨ c = '\t' then (if acc = [] then wordsOf [] t else acc.reverse :: wordsOf [] t)
    else wordsOf (c :: acc) t

/-- The operation of a mnemonic and its operand. -/
def readOperation (name : List Char) (operand : Option (List Char)) : Option Instr :=
  match written.find? fun w => w.name == name with
  | some w => w.read operand
  | none => none

/-- The words of a line without its agent. -/
def readWords : List (List Char) → Option Instr
  | [name] => readOperation name none
  | [name, operand] => readOperation name (some operand)
  | _ => none

/-- One line of a program: the operation, and the agent of its prefix or else of R61. -/
def assembleLine (line : List Char) : Option Presented :=
  match wordsOf [] line with
  | [] => none
  | w :: ws =>
    match readAgent w with
    | some a => (readWords ws).map fun i => { agent := a, word := encode i }
    | none => (readWords (w :: ws)).map fun i => { agent := i.agent, word := encode i }

/-! ## Pseudo-operations (R78) -/

/-- `crc16("s")`; the result is read from `crc`. -/
def pseudoCrc16 (s : ByteString) : List Instr := .crcInit :: s.map Instr.crcByte

/-- `buildFrame("c")` with marker `m`: `'P'` for a request, `'S'` for a write command, `'D'` for a response; the result is `tx_stream`. -/
def pseudoBuildFrame (m : Byte) (c : ByteString) : List Instr :=
  [.cmdClear] ++ c.map Instr.cmdPush ++ [.txStart m] ++ List.replicate (c.length + 8) .txPop

/-- `receive("r")`: the capture armed, then the Line's bytes. -/
def pseudoReceive (r : ByteString) : List Instr := .rxClear :: r.map Instr.rxByte

/-- `sendCommand("c")` up to the wait for the reply: `RX_CLEAR` comes first (20_memory.md R53). -/
def pseudoSendCommand (c : ByteString) : List Instr := .rxClear :: pseudoBuildFrame Config.markRequest c

/-- Operations as the agents of R61 present them. -/
def presented (is : List Instr) : List Presented := is.map fun i => { agent := i.agent, word := encode i }

/-- Steps (3) to (8) of one exchange (46_host_session.md R200): the frame goes out, the reply comes in, `judge` judges it. -/
def exchange (m : Byte) (c reply : ByteString) (judge : List Instr) : List Presented :=
  presented ([.rxClear] ++ pseudoBuildFrame m c ++ reply.map Instr.rxByte ++ judge)

end Sys2Proof.Machine
end

