-- ==== Sys2Proof/Machine/Views.lean ====
section
/-! DEFINITION. The numbers of the enumerations (10_state.md R15 to R34, 60_exceptions.md R220, R222, R223) and the sixteen numbered
register views of 10_state.md R24. Reading a view has no side effect and no operation does it. -/

namespace Sys2Proof.Machine

/-! ## Numbers of the enumerations -/

/-- The numbers of `tx_phase` (R15). -/
def TxPhase.code : TxPhase → BitVec 4
  | .idle => 0
  | .m0 => 1
  | .m1 => 2
  | .l2 => 3
  | .l1 => 4
  | .l0 => 5
  | .body => 6
  | .crch => 7
  | .crcl => 8
  | .term => 9

/-- The numbers of `rx_state` (R18). -/
def RxState.code : RxState → BitVec 2
  | .idle => 0
  | .capturing => 1
  | .done => 2

/-- The numbers of `rx_end` (R18). -/
def RxEnd.code : RxEnd → BitVec 2
  | .none => 0
  | .term => 1
  | .overflow => 2
  | .timeout => 3

/-- The numbers of `v_reason` (R19). -/
def Reason.code : Reason → BitVec 3
  | .none => 0
  | .empty => 1
  | .marker => 2
  | .lenField => 3
  | .length => 4

/-- The numbers of `ack` (R21). -/
def Ack.code : Ack → BitVec 2
  | .none => 0
  | .accepted => 1
  | .refused => 2

/-- The numbers of `err` (R22, 60_exceptions.md R220). -/
def ErrClass.code : ErrClass → BitVec 3
  | .none => 0
  | .connection => 1
  | .protocol => 2
  | .parse => 3
  | .refused => 4
  | .timeout => 5
  | .caller => 6

/-- The numbers of the details (60_exceptions.md R223). -/
def Detail.code : Detail → Byte
  | .none => 0x00
  | .illegalOp => 0x01
  | .busy => 0x02
  | .notReady => 0x03
  | .badMarker => 0x04
  | .cmdTooLong => 0x05
  | .cmdNotAscii => 0x06
  | .txIdle => 0x07
  | .noResponse => 0x10
  | .vEmpty => 0x20
  | .vMarker => 0x21
  | .vLenField => 0x22
  | .vLength => 0x23
  | .wLengthSoft => 0x24
  | .wNoterm => 0x25
  | .xFallback => 0x26
  | .xShort => 0x27
  | .pShort => 0x30
  | .pFormat => 0x31
  | .pField => 0x32
  | .pLengthMismatch => 0x33
  | .notAck => 0x40

/-- The numbers of the diagnostics codes (R23, 60_exceptions.md R222). -/
def DiagCode.code : DiagCode → Nat
  | .eConn => 1
  | .eProto => 2
  | .eParse => 3

/-- A diagnostics entry as the port gives it: the numbers of its code, detail and operation (R23). -/
def DiagEntry.triple (e : DiagEntry) : Nat × Byte × Byte := (e.code.code, e.detail.code, e.op)

/-- The numbers of `rec_tag` (R30). -/
def RecTag.code : RecTag → BitVec 4
  | .none => 0
  | .protocolId => 1
  | .status => 2
  | .mode => 3
  | .fault => 4
  | .serial => 5
  | .firmware => 6
  | .rated => 7
  | .model => 8
  | .time => 9
  | .schedule => 10
  | .energy => 11

/-- The numbers of `mode_name` (R34, 45_field_decoders.md R164). -/
def ModeName.code : ModeName → BitVec 3
  | .powerOn => 0
  | .standby => 1
  | .bypass => 2
  | .battery => 3
  | .fault => 4
  | .hybrid => 5
  | .unknown => 6

/-- A one-bit field. -/
def flagBit (b : Bool) : BitVec 1 := BitVec.ofBool b

/-! ## The numbered views (R24) -/

/-- Register 0, `STATUS`. -/
def State.statusView (s : State) : BitVec 16 :=
  0#4 ++ s.ack.code ++ flagBit s.cmdBad ++ flagBit s.cmdOvf ++ s.rxEnd.code ++ s.rxState.code ++ s.txPhase.code

/-- Register 1, `ERR`. -/
def State.errView (s : State) : BitVec 16 := s.errInfo.code ++ 0#5 ++ s.err.code

/-- Register 2, `CRC`. -/
def State.crcView (s : State) : BitVec 16 := s.crc

/-- Register 3, `CMDLEN`. -/
def State.cmdLenView (s : State) : BitVec 16 := 0#6 ++ BitVec.ofNat 10 s.cmdLen

/-- Register 4, `TXIDX`. -/
def State.txIdxView (s : State) : BitVec 16 := 0#6 ++ BitVec.ofNat 10 s.txIdx

/-- Register 5, `TXBYTE`. -/
def State.txByteView (s : State) : BitVec 16 := s.txMarker ++ s.txOut

/-- Register 6, `RXLEN`. -/
def State.rxLenView (s : State) : BitVec 16 := 0#6 ++ BitVec.ofNat 10 s.rxLen

/-- Register 7, `VERDICT`. -/
def State.verdictView (s : State) : BitVec 16 :=
  0#5 ++ flagBit s.pay.fallback ++ flagBit s.pay.isNull ++ flagBit s.pay.valid ++ 0#1 ++ s.verdict.reason.code ++
    flagBit s.verdict.noterm ++ flagBit s.verdict.soft ++ flagBit s.verdict.ok ++ flagBit s.verdict.valid

/-- Register 8, `DECLLEN`. -/
def State.declLenView (s : State) : BitVec 16 := 0#6 ++ BitVec.ofNat 10 s.verdict.declLen

/-- Register 9, `EXPTOTAL`. -/
def State.expTotalView (s : State) : BitVec 16 := 0#5 ++ BitVec.ofNat 11 s.verdict.expTotal

/-- Register 10, `PAYOFF`. -/
def State.payOffView (s : State) : BitVec 16 := 0#13 ++ BitVec.ofNat 3 s.pay.off

/-- Register 11, `PAYLEN`. -/
def State.payLenView (s : State) : BitVec 16 := 0#6 ++ BitVec.ofNat 10 s.pay.len

/-- Register 12, `RECTAG`. -/
def State.recTagView (s : State) : BitVec 16 :=
  0#10 ++ flagBit s.record.isPartial ++ flagBit s.record.isNull ++ s.record.tag.code

/-- Register 14, `CFG_TOL`. -/
def cfgTolView : BitVec 16 := 0#14 ++ BitVec.ofNat 2 Config.lenTolerance

/-- Register 15, `CFG_RXMAX`. -/
def cfgRxMaxView : BitVec 16 := 0#5 ++ BitVec.ofNat 11 Config.rxMax

/-- The numbered views; `none` for a number without a register. `DIAGCNT` (13) is unbounded, so the value is a natural number. -/
def State.view (s : State) (number : Nat) : Option Nat :=
  match number with
  | 0 => some s.statusView.toNat
  | 1 => some s.errView.toNat
  | 2 => some s.crcView.toNat
  | 3 => some s.cmdLenView.toNat
  | 4 => some s.txIdxView.toNat
  | 5 => some s.txByteView.toNat
  | 6 => some s.rxLenView.toNat
  | 7 => some s.verdictView.toNat
  | 8 => some s.declLenView.toNat
  | 9 => some s.expTotalView.toNat
  | 10 => some s.payOffView.toNat
  | 11 => some s.payLenView.toNat
  | 12 => some s.recTagView.toNat
  | 13 => some s.diagCount
  | 14 => some cfgTolView.toNat
  | 15 => some cfgRxMaxView.toNat
  | _ => none

end Sys2Proof.Machine
end

