-- ==== Sys2Proof/Safety.lean ====
section
/-! DEFINITION. What counts as a safe run, in the terms the statements use: the agents' law (30_encoding.md R64), the invariants of the
block (10_state.md, 42_rx_capture.md R125, 41_frame_builder.md R110 to R113), the outcomes of 60_exceptions.md R223 and R224, and
what may be observed of the buffers (20_memory.md R41). -/

namespace Sys2Proof.Machine

/-! ## The agents (R64) -/

/-- What R64 lets an agent present: the Line only `RX_BYTE`, the Timer only `RX_TIMEOUT`, the Host everything else. The block does
not check it (V10). -/
def Presented.lawful (p : Presented) : Bool :=
  match decode p.word with
  | .ok i => p.agent == i.agent
  | .error _ => p.agent == .host

/-! ## Op words (R61 to R63) -/

/-- The opcodes of R61 whose operand must be 0x00. -/
def opcodesWithoutOperand : List Byte :=
  [0x00#8, 0x01#8, 0x10#8, 0x20#8, 0x23#8, 0x30#8, 0x32#8, 0x40#8, 0x41#8, 0x42#8] ++
    [0x50#8, 0x51#8, 0x52#8, 0x53#8, 0x54#8, 0x55#8, 0x56#8, 0x57#8, 0x58#8, 0x59#8, 0x5A#8]

/-- The opcodes of R61 with an operand: `CRC_BYTE`, `CRC_BIT`, `CMD_PUSH`, `TX_START`, `RX_BYTE`. -/
def opcodesWithOperand : List Byte := [0x11#8, 0x12#8, 0x21#8, 0x22#8, 0x31#8]

/-- A word is reserved (R63). -/
def reservedWord (w : OpWord) : Prop :=
  (opcodeField w ∉ opcodesWithoutOperand ∧ opcodeField w ∉ opcodesWithOperand) ∨
    (opcodeField w ∈ opcodesWithoutOperand ∧ immField w ≠ 0x00#8) ∨
    (opcodeField w = 0x12#8 ∧ (immField w).extractLsb' 1 7 ≠ 0#7)

/-! ## Runs of operations -/

/-- The operations in order, stopping at a fault or a refusal. -/
def runOps : List Instr → State → Result
  | [], s => .next s
  | i :: is, s =>
    match exec i s with
    | .next t => runOps is t
    | .fault r => .fault r
    | .refused r => .refused r

/-- The operations that read and write no register of the frame builder (41_frame_builder.md R113): those of the Line and the Timer,
and the Host's on the capture, validator, acknowledgement and decoder units. -/
def outsideBuilder : Instr → Bool
  | .nop => true
  | .reset => false
  | .crcInit => false
  | .crcByte _ => false
  | .crcBit _ => false
  | .cmdClear => false
  | .cmdPush _ => false
  | .txStart _ => false
  | .txPop => false
  | .rxClear => true
  | .rxByte _ => true
  | .rxTimeout => true
  | .validate => true
  | .extract => true
  | .ackCheck => true
  | .decProtocolId => true
  | .decStatus => true
  | .decMode => true
  | .decFault => true
  | .decSerial => true
  | .decFirmware => true
  | .decRated => true
  | .decModel => true
  | .decTime => true
  | .decSchedule => true
  | .decEnergy => true

/-! ## Invariants -/

/-- The buffers and their lengths stay in range (R12, R13, R40) and in canonical form. -/
structure BuffersOk (s : State) : Prop where
  cmd_wf : Memory.wf s.cmd = true
  cmd_within : Memory.within 996 s.cmd = true
  rx_wf : Memory.wf s.rx = true
  rx_within : Memory.within 1000 s.rx = true
  cmdLen_le : s.cmdLen ≤ 996
  rxLen_le : s.rxLen ≤ 1000

/-- How many bytes of the frame have been emitted, by phase (R15). -/
def emittedCount (s : State) : Nat :=
  match s.txPhase with
  | .idle => 0
  | .m0 => 0
  | .m1 => 1
  | .l2 => 2
  | .l1 => 3
  | .l0 => 4
  | .body => 5 + s.txIdx
  | .crch => 5 + s.cmdLen
  | .crcl => 6 + s.cmdLen
  | .term => 7 + s.cmdLen

/-- Where `tx_idx` stands, by phase: 0 before `BODY`, below `cmd_len` in it (R110), at `cmd_len` after it. -/
def indexOk (s : State) : Prop :=
  match s.txPhase with
  | .idle => s.txIdx ≤ 996
  | .m0 => s.txIdx = 0
  | .m1 => s.txIdx = 0
  | .l2 => s.txIdx = 0
  | .l1 => s.txIdx = 0
  | .l0 => s.txIdx = 0
  | .body => s.txIdx < s.cmdLen
  | .crch => s.txIdx = s.cmdLen
  | .crcl => s.txIdx = s.cmdLen
  | .term => s.txIdx = s.cmdLen

/-- The frame builder: while a frame is under construction, the bytes emitted are the first ones of the frame of the command held, and
the CRC register is the checksum of those of them that it covers (R106 to R113). -/
structure BuilderOk (s : State) : Prop where
  marker : isMarker s.txMarker = true
  bad : s.cmdBad = s.command.any notAscii
  ovf : s.cmdOvf = true → s.cmdLen = 996
  clean : s.txPhase ≠ .idle → s.cmdOvf = false ∧ s.cmdBad = false
  index : indexOk s
  stream : s.txPhase ≠ .idle → s.txStream = (buildFrame s.txMarker s.command).take (emittedCount s)
  checksum : s.txPhase ≠ .idle →
    s.crc = ((frameHead s.txMarker s.command).take (emittedCount s)).foldl crcByte 0xFFFF#16

/-- The capture unit: what R125 (a) to (c) guarantees of a Response, and the same before there is one. -/
structure CaptureOk (s : State) : Prop where
  idle : s.rxState = .idle → s.rxLen = 0 ∧ s.rxEnd = .none
  capturing : s.rxState = .capturing → s.rxLen ≤ 999 ∧ s.rxEnd = .none ∧ 0x0D#8 ∉ s.response
  done : s.rxState = .done → s.rxEnd ≠ .none
  term : s.rxState = .done → s.rxEnd = .term → ∃ body, s.response = body ++ [0x0D#8] ∧ 0x0D#8 ∉ body
  overflow : s.rxState = .done → s.rxEnd = .overflow → s.rxLen = 1000 ∧ 0x0D#8 ∉ s.response
  timeout : s.rxState = .done → s.rxEnd = .timeout → s.rxLen ≤ 999 ∧ 0x0D#8 ∉ s.response

/-- The verdict registers are cleared or describe the Response now held (R19, R20, R21, V6). -/
structure VerdictOk (s : State) : Prop where
  cleared : s.verdict.valid = false → s.verdict = .cleared
  describes : s.verdict.valid = true → s.rxState = .done ∧ s.verdict = (validate s.response).regs
  pay_cleared : s.pay.valid = false → s.pay = .cleared
  pay_describes : s.pay.valid = true → s.rxState = .done ∧ s.pay = payRegs (extract s.response)
  ack_describes : s.ack ≠ .none → s.rxState = .done ∧ s.ack = if isAck s.response then .accepted else .refused

/-- The tag whose shape a record's fields have (R30). -/
def Fields.tag : Fields → RecTag
  | .none => .none
  | .protocolId _ => .protocolId
  | .status _ _ _ => .status
  | .mode _ _ => .mode
  | .fault _ _ _ _ => .fault
  | .serial _ _ _ => .serial
  | .firmware _ _ _ => .firmware
  | .rated _ _ _ => .rated
  | .model _ _ _ => .model
  | .time _ _ _ _ _ _ _ => .time
  | .schedule _ _ _ _ _ _ => .schedule
  | .energy _ _ _ => .energy

/-- The text fields of a record (R31). -/
def Fields.texts : Fields → List Slice
  | .none => []
  | .protocolId t => [t]
  | .status _ f _ => f
  | .mode _ _ => []
  | .fault _ f _ _ => f
  | .serial _ t _ => [t]
  | .firmware m s1 s2 => m :: (s1.toList ++ s2.toList)
  | .rated _ f _ => f
  | .model t _ _ => [t]
  | .time _ _ _ _ _ _ _ => []
  | .schedule _ _ _ _ _ _ => []
  | .energy _ _ _ => []

/-- The ranges of R32 to R36, and the least number of fields that R165 and R168 give a record for. -/
def Fields.inRange : Fields → Prop
  | .none => True
  | .protocolId _ => True
  | .status n f _ => n = f.length ∧ 28 ≤ n ∧ n ≤ 996
  | .mode code name => code ≤ 9 ∧ name = modeName code
  | .fault n f _ flags => n = f.length ∧ 17 ≤ n ∧ n ≤ 996 ∧ flags.length = 16
  | .serial d _ isMatch => (∀ n, d = some n → n ≤ 99) ∧ (isMatch = true → d ≠ Option.none)
  | .firmware _ _ _ => True
  | .rated n f _ => n = f.length ∧ 1 ≤ n ∧ n ≤ 996
  | .model t _ _ => t.len = 2
  | .time y mo d h mi sec iso => y ≤ 9999 ∧ mo ≤ 99 ∧ d ≤ 99 ∧ h ≤ 99 ∧ mi ≤ 99 ∧ sec ≤ 99 ∧ iso.length = 19
  | .schedule sh sm eh em _ _ => sh ≤ 99 ∧ sm ≤ 99 ∧ eh ≤ 99 ∧ em ≤ 99
  | .energy wh i f => i = wh / 1000 ∧ f = wh % 1000

/-- The decoded record: absent, or written by the decoder of its tag from the Response now held, its text inside it, and without fields
when it is null (R30 to R37). -/
structure RecordOk (s : State) : Prop where
  absent : s.record.tag = .none → s.record = .cleared
  held : s.record.tag ≠ .none → s.rxState = .done
  shape : s.record.isNull = false → s.record.fields.tag = s.record.tag
  null_shape : s.record.isNull = true → s.record.isPartial = false ∧ s.record.fields = .none
  texts : ∀ t ∈ s.record.fields.texts, 5 ≤ t.off ∧ t.off + t.len ≤ s.rxLen
  range : s.record.fields.inRange

/-- Every invariant at once. -/
structure Invariant (s : State) : Prop where
  buffers : BuffersOk s
  builder : BuilderOk s
  capture : CaptureOk s
  verdict : VerdictOk s
  record : RecordOk s

/-! ## Outcomes (R223, R224) -/

/-- The class that `err` has with a detail in `err_info`, the class column of R223; a warning is no error. -/
def Detail.errClass : Detail → Option ErrClass
  | .none => some .none
  | .illegalOp => some .caller
  | .busy => some .caller
  | .notReady => some .caller
  | .badMarker => some .caller
  | .cmdTooLong => some .caller
  | .cmdNotAscii => some .caller
  | .txIdle => some .caller
  | .noResponse => some .timeout
  | .vEmpty => some .protocol
  | .vMarker => some .protocol
  | .vLenField => some .protocol
  | .vLength => some .protocol
  | .wLengthSoft => Option.none
  | .wNoterm => Option.none
  | .xFallback => Option.none
  | .xShort => some .protocol
  | .pShort => some .parse
  | .pFormat => some .parse
  | .pField => some .parse
  | .pLengthMismatch => Option.none
  | .notAck => some .refused

/-- The errors of `VALIDATE` (R224). -/
def validateErrors : List Detail := [.notReady, .vEmpty, .vMarker, .vLenField, .vLength]

/-- The errors of `EXTRACT` (R224). -/
def extractErrors : List Detail := validateErrors ++ [.xShort]

/-- The warnings of `EXTRACT` (R224). -/
def extractWarnings : List Detail := [.wLengthSoft, .wNoterm, .xFallback]

/-- The error column of R224. -/
def errorsOf : Instr → List Detail
  | .nop => []
  | .reset => []
  | .crcInit => [.busy]
  | .crcByte _ => [.busy]
  | .crcBit _ => [.busy]
  | .cmdClear => [.busy]
  | .cmdPush _ => [.busy, .cmdTooLong]
  | .txStart _ => [.busy, .badMarker, .cmdTooLong, .cmdNotAscii]
  | .txPop => [.txIdle]
  | .rxClear => []
  | .rxByte _ => []
  | .rxTimeout => [.noResponse]
  | .validate => validateErrors
  | .extract => extractErrors
  | .ackCheck => [.notReady, .notAck]
  | .decProtocolId => extractErrors ++ [.pShort]
  | .decStatus => extractErrors ++ [.pShort]
  | .decMode => extractErrors ++ [.pShort, .pFormat]
  | .decFault => extractErrors ++ [.pShort, .pField]
  | .decSerial => extractErrors ++ [.pShort]
  | .decFirmware => extractErrors ++ [.pShort]
  | .decRated => extractErrors ++ [.pShort]
  | .decModel => extractErrors ++ [.pShort]
  | .decTime => extractErrors ++ [.pShort, .pFormat]
  | .decSchedule => [.notReady]
  | .decEnergy => [.notReady, .pFormat]

/-- The warning column of R224; `DEC_SCHEDULE` also logs the errors of `EXTRACT`. -/
def warningsOf : Instr → List Detail
  | .nop => []
  | .reset => []
  | .crcInit => []
  | .crcByte _ => []
  | .crcBit _ => []
  | .cmdClear => []
  | .cmdPush _ => []
  | .txStart _ => []
  | .txPop => []
  | .rxClear => []
  | .rxByte _ => []
  | .rxTimeout => []
  | .validate => [.wLengthSoft, .wNoterm]
  | .extract => extractWarnings
  | .ackCheck => []
  | .decProtocolId => extractWarnings
  | .decStatus => extractWarnings ++ [.pField]
  | .decMode => extractWarnings
  | .decFault => extractWarnings
  | .decSerial => extractWarnings ++ [.pLengthMismatch, .pFormat]
  | .decFirmware => extractWarnings
  | .decRated => extractWarnings ++ [.pField]
  | .decModel => extractWarnings
  | .decTime => extractWarnings
  | .decSchedule => extractWarnings ++ [.pShort, .pFormat] ++ extractErrors
  | .decEnergy => []

/-- The operations that write `err` and `err_info` on every execution: the Host's, `NOP` apart (R221). -/
def writesOutcome (i : Instr) : Bool := i.agent == .host && !(i == .nop)

/-- The operations that need a Response (42_rx_capture.md R126). -/
def needsResponse : Instr → Bool
  | .nop => false
  | .reset => false
  | .crcInit => false
  | .crcByte _ => false
  | .crcBit _ => false
  | .cmdClear => false
  | .cmdPush _ => false
  | .txStart _ => false
  | .txPop => false
  | .rxClear => false
  | .rxByte _ => false
  | .rxTimeout => false
  | .validate => true
  | .extract => true
  | .ackCheck => true
  | .decProtocolId => true
  | .decStatus => true
  | .decMode => true
  | .decFault => true
  | .decSerial => true
  | .decFirmware => true
  | .decRated => true
  | .decModel => true
  | .decTime => true
  | .decSchedule => true
  | .decEnergy => true

/-- The decoders of the common frame R160 whose empty payload is `null`: all but `DEC_SCHEDULE` and `DEC_ENERGY`, each with its tag. -/
def payloadDecoders : List (Instr × RecTag) :=
  [(.decProtocolId, .protocolId), (.decStatus, .status), (.decMode, .mode), (.decFault, .fault), (.decSerial, .serial),
    (.decFirmware, .firmware), (.decRated, .rated), (.decModel, .model), (.decTime, .time)]

/-! ## What may be observed of the buffers (R41) -/

/-- Two states that differ at most in buffer bytes at and above the lengths. -/
structure SameBelowLengths (s t : State) : Prop where
  rest : t = { s with cmd := t.cmd, rx := t.rx }
  cmd_below : ∀ i, i < s.cmdLen → Memory.read t.cmd i = Memory.read s.cmd i
  rx_below : ∀ i, i < s.rxLen → Memory.read t.rx i = Memory.read s.rx i

/-! ## Safe runs -/

/-- A step that answers a next state: neither a fault nor a refusal (R231). -/
def Completes (r : Result) : Prop := ∃ t, r = .next t

end Sys2Proof.Machine
end

