-- ==== Sys2Proof/Certificates/Slice0/Obligations.lean ====
section
/-! DEFINITION. The statements for the provers. Each docstring names the rule of spec/ that the statement formalises. -/

open Sys2Proof Sys2Proof.Machine

/-! ## Op words (30_encoding.md) -/

/-- R60 to R62: decoding an encoded well-formed operation gives it back, every operand at every value. -/
def Obligations.EncodedOperationDecodesToItself : Prop :=
  ∀ i : Instr, i.wellFormed = true → decode (encode i) = .ok i

/-- R61, R63: a word that is not reserved has one meaning, and that operation's encoding is the word. -/
def Obligations.DecodedWordEncodesBack : Prop :=
  ∀ (w : OpWord) (i : Instr), decode w = .ok i → i.wellFormed = true ∧ encode i = w

/-- R63: which words are reserved, and their whole effect. -/
def Obligations.ReservedWordsReportIllegalOp : Prop :=
  ∀ w : OpWord,
    ((∃ r, decode w = .error r) ↔ reservedWord w) ∧
    (reservedWord w → ∀ s : State, runWord w s = .next { s with err := .caller, errInfo := .illegalOp })

/-- Words written out from R60, R61 and the op-word list of spec/95, one per unit and format. -/
def Obligations.SpecWordsDecode : Prop :=
  decode 0x0000#16 = .ok .nop ∧ decode 0x0100#16 = .ok .reset ∧ decode 0x115E#16 = .ok (.crcByte 0x5E#8) ∧
  decode 0x1201#16 = .ok (.crcBit 0x01#8) ∧ decode 0x2250#16 = .ok (.txStart 0x50#8) ∧ decode 0x2300#16 = .ok .txPop ∧
  decode 0x310D#16 = .ok (.rxByte 0x0D#8) ∧ decode 0x3200#16 = .ok .rxTimeout ∧ decode 0x4100#16 = .ok .extract ∧
  decode 0x4200#16 = .ok .ackCheck ∧ decode 0x5A00#16 = .ok .decEnergy

/-- R6, R52: a step performs the operation of the word presented next, and nothing else happens; a reserved word has the effect of
R63. -/
def Obligations.StepRunsThePresentedOperation : Prop :=
  ∀ (s : State) (p : Presented) (rest : List Presented), s.inbox = p :: rest →
    (∀ i : Instr, decode p.word = .ok i → i.wellFormed = true ∧ step s = exec i { s with inbox := rest }) ∧
    (∀ r : Reserved, decode p.word = .error r →
      step s = .next { s with inbox := rest, err := .caller, errInfo := .illegalOp })

/-! ## Reset and control (70_reset_and_hazards.md) -/

/-- R250: every element of state after power-on reset but the two buffers' contents, which R250 leaves unspecified; and 10_state.md R24:
the register views in that state and, for every state, which bits of them hold which register, with the numbers of the enumerations
(10_state.md R15, R18, R19, R21, R22, R23, R30, R34, 60_exceptions.md R220, R222, R223). -/
def Obligations.PowerOnState : Prop :=
  State.reset.crc = 0xFFFF#16 ∧ State.reset.cmdLen = 0 ∧ State.reset.cmdOvf = false ∧ State.reset.cmdBad = false ∧
  State.reset.rxLen = 0 ∧ State.reset.txPhase = .idle ∧ State.reset.txIdx = 0 ∧ State.reset.txMarker = 0x50#8 ∧
  State.reset.txOut = 0x00#8 ∧ State.reset.txStream = [] ∧ State.reset.rxState = .idle ∧ State.reset.rxEnd = .none ∧
  State.reset.verdict = ⟨false, false, false, false, .none, 0, 0⟩ ∧ State.reset.pay = ⟨false, false, 0, 0, false⟩ ∧
  State.reset.ack = .none ∧ State.reset.err = .none ∧ State.reset.errInfo = .none ∧
  State.reset.record = ⟨.none, false, false, .none⟩ ∧ State.reset.diag = [] ∧ State.reset.diagCount = 0 ∧
  (List.range 16).map State.reset.view =
    [some 0, some 0, some 0xFFFF, some 0, some 0, some 0x5000, some 0, some 0, some 0, some 0, some 0, some 0, some 0, some 0,
      some 2, some 1000] ∧
  (∀ s : State,
    (List.range 16).map s.view =
      [some s.statusView.toNat, some s.errView.toNat, some s.crc.toNat, some (s.cmdLen % 1024), some (s.txIdx % 1024),
        some s.txByteView.toNat, some (s.rxLen % 1024), some s.verdictView.toNat, some (s.verdict.declLen % 1024),
        some (s.verdict.expTotal % 2048), some (s.pay.off % 8), some (s.pay.len % 1024), some s.recTagView.toNat,
        some s.diag.length, some 2, some 1000] ∧
    (s.statusView.extractLsb' 0 4 = s.txPhase.code ∧ s.statusView.extractLsb' 4 2 = s.rxState.code ∧
      s.statusView.extractLsb' 6 2 = s.rxEnd.code ∧ s.statusView.getLsbD 8 = s.cmdOvf ∧ s.statusView.getLsbD 9 = s.cmdBad ∧
      s.statusView.extractLsb' 10 2 = s.ack.code ∧ s.statusView.extractLsb' 12 4 = 0#4) ∧
    (s.errView.extractLsb' 0 3 = s.err.code ∧ s.errView.extractLsb' 3 5 = 0#5 ∧ s.errView.extractLsb' 8 8 = s.errInfo.code) ∧
    (s.txByteView.extractLsb' 0 8 = s.txOut ∧ s.txByteView.extractLsb' 8 8 = s.txMarker) ∧
    (s.verdictView.getLsbD 0 = s.verdict.valid ∧ s.verdictView.getLsbD 1 = s.verdict.ok ∧
      s.verdictView.getLsbD 2 = s.verdict.soft ∧ s.verdictView.getLsbD 3 = s.verdict.noterm ∧
      s.verdictView.extractLsb' 4 3 = s.verdict.reason.code ∧ s.verdictView.getLsbD 7 = false ∧
      s.verdictView.getLsbD 8 = s.pay.valid ∧ s.verdictView.getLsbD 9 = s.pay.isNull ∧
      s.verdictView.getLsbD 10 = s.pay.fallback ∧ s.verdictView.extractLsb' 11 5 = 0#5) ∧
    (s.recTagView.extractLsb' 0 4 = s.record.tag.code ∧ s.recTagView.getLsbD 4 = s.record.isNull ∧
      s.recTagView.getLsbD 5 = s.record.isPartial ∧ s.recTagView.extractLsb' 6 10 = 0#10)) ∧
  [TxPhase.idle, .m0, .m1, .l2, .l1, .l0, .body, .crch, .crcl, .term].map TxPhase.code = [0, 1, 2, 3, 4, 5, 6, 7, 8, 9] ∧
  [RxState.idle, .capturing, .done].map RxState.code = [0, 1, 2] ∧
  [RxEnd.none, .term, .overflow, .timeout].map RxEnd.code = [0, 1, 2, 3] ∧
  [Reason.none, .empty, .marker, .lenField, .length].map Reason.code = [0, 1, 2, 3, 4] ∧
  [Ack.none, .accepted, .refused].map Ack.code = [0, 1, 2] ∧
  [ErrClass.none, .connection, .protocol, .parse, .refused, .timeout, .caller].map ErrClass.code = [0, 1, 2, 3, 4, 5, 6] ∧
  [Detail.none, .illegalOp, .busy, .notReady, .badMarker, .cmdTooLong, .cmdNotAscii, .txIdle].map Detail.code =
    [0x00, 0x01, 0x02, 0x03, 0x04, 0x05, 0x06, 0x07] ∧
  [Detail.noResponse, .vEmpty, .vMarker, .vLenField, .vLength, .wLengthSoft, .wNoterm, .xFallback, .xShort].map Detail.code =
    [0x10, 0x20, 0x21, 0x22, 0x23, 0x24, 0x25, 0x26, 0x27] ∧
  [Detail.pShort, .pFormat, .pField, .pLengthMismatch, .notAck].map Detail.code = [0x30, 0x31, 0x32, 0x33, 0x40] ∧
  [DiagCode.eConn, .eProto, .eParse].map DiagCode.code = [1, 2, 3] ∧
  [RecTag.none, .protocolId, .status, .mode, .fault, .serial, .firmware, .rated, .model, .time, .schedule, .energy].map
    RecTag.code = [0, 1, 2, 3, 4, 5, 6, 7, 8, 9, 10, 11] ∧
  [ModeName.powerOn, .standby, .bypass, .battery, .fault, .hybrid, .unknown].map ModeName.code = [0, 1, 2, 3, 4, 5, 6]

/-- R251: `RESET` is accepted in every state and gives every element its power-on value but the log, which it keeps. -/
def Obligations.ResetRestoresAllButTheLog : Prop :=
  ∀ s : State, ∃ t, exec .reset s = .next t ∧ t.diag = s.diag ∧
    t.crc = 0xFFFF#16 ∧ t.cmdLen = 0 ∧ t.cmdOvf = false ∧ t.cmdBad = false ∧ t.rxLen = 0 ∧ t.txPhase = .idle ∧ t.txIdx = 0 ∧
    t.txMarker = 0x50#8 ∧ t.txOut = 0x00#8 ∧ t.txStream = [] ∧ t.rxState = .idle ∧ t.rxEnd = .none ∧
    t.verdict = State.reset.verdict ∧ t.pay = State.reset.pay ∧ t.ack = .none ∧ t.err = .none ∧ t.errInfo = .none ∧
    t.record = State.reset.record

/-- R253: `NOP` writes nothing at all. -/
def Obligations.NopWritesNothing : Prop :=
  ∀ s : State, exec .nop s = .next s

/-! ## The CRC unit (40_crc.md) -/

/-- R90: the shift step, that it is a bijection and linear, and its corner values. -/
def Obligations.CrcShiftIsALinearBijection : Prop :=
  (∀ c : U16, crcShift c = if c.getLsbD 0 then (c >>> 1) ^^^ 0xA001#16 else c >>> 1) ∧
  (∀ a b : U16, crcShift (a ^^^ b) = crcShift a ^^^ crcShift b) ∧
  Function.Bijective crcShift ∧
  crcShift 0x0000#16 = 0x0000#16 ∧ crcShift 0x0001#16 = 0xA001#16 ∧ crcShift 0xFFFF#16 = 0xDFFE#16 ∧
  crcShift 0x8000#16 = 0x4000#16

/-- R91: `CRC_INIT`. -/
def Obligations.CrcInitSetsTheInitialValue : Prop :=
  ∀ s : State,
    (s.txPhase = .idle → exec .crcInit s = .next { s with crc := 0xFFFF#16, err := .none, errInfo := .none }) ∧
    (s.txPhase ≠ .idle → exec .crcInit s = .next { s with err := .caller, errInfo := .busy })

/-- R92: `CRC_BYTE b` meets bits 7..0 and shifts eight times. -/
def Obligations.CrcByteShiftsEightTimes : Prop :=
  ∀ (s : State) (b : Byte),
    (s.txPhase = .idle →
      exec (.crcByte b) s = .next { s with crc := crcShift^[8] (s.crc ^^^ b.setWidth 16), err := .none, errInfo := .none }) ∧
    (s.txPhase ≠ .idle → exec (.crcByte b) s = .next { s with err := .caller, errInfo := .busy })

/-- R93: `CRC_BIT d` shifts once, and the eight bits of a byte, least significant first, make the byte step. -/
def Obligations.CrcBitsMakeAByte : Prop :=
  (∀ (s : State) (d : Byte), (Instr.crcBit d).wellFormed = true →
    (s.txPhase = .idle →
      exec (.crcBit d) s = .next { s with crc := crcShift (s.crc ^^^ d.setWidth 16), err := .none, errInfo := .none }) ∧
    (s.txPhase ≠ .idle → exec (.crcBit d) s = .next { s with err := .caller, errInfo := .busy })) ∧
  ∀ (c : U16) (b : Byte), crcByte c b = (List.range 8).foldl (fun r k => crcBit r (b.getLsbD k)) c

/-- R94, R95: the checksum starts at 0xFFFF and is incremental; strings that differ in a single bit have different checksums, and some
different strings have equal ones. -/
def Obligations.ChecksumSeesEverySingleBit : Prop :=
  crc16 [] = 0xFFFF#16 ∧
  (∀ s t : ByteString, crc16 (s ++ t) = t.foldl crcByte (crc16 s)) ∧
  (∀ (pre post : ByteString) (b : Byte) (k : Nat), k < 8 →
    crc16 (pre ++ b :: post) ≠ crc16 (pre ++ (b ^^^ (1#8 <<< k)) :: post)) ∧
  ∃ s t : ByteString, s ≠ t ∧ crc16 s = crc16 t

/-! ## The frame builder (41_frame_builder.md) -/

/-- R102: `CMD_CLEAR`. -/
def Obligations.CmdClearEmptiesTheCommand : Prop :=
  ∀ s : State,
    (s.txPhase = .idle →
      exec .cmdClear s = .next { s with cmdLen := 0, cmdOvf := false, cmdBad := false, err := .none, errInfo := .none }) ∧
    (s.txPhase ≠ .idle → exec .cmdClear s = .next { s with err := .caller, errInfo := .busy })

/-- R103: `CMD_PUSH b` appends the byte, or reports a full buffer, or is refused. -/
def Obligations.CmdPushAppendsTheByte : Prop :=
  ∀ (s : State) (b : Byte), Memory.wf s.cmd = true →
    (s.txPhase = .idle → s.cmdLen < 996 → ∃ t, exec (.cmdPush b) s = .next t ∧
      (∀ i, Memory.read t.cmd i = if i = s.cmdLen then b else Memory.read s.cmd i) ∧
      t = { s with cmd := t.cmd, cmdLen := s.cmdLen + 1, cmdBad := s.cmdBad || decide (0x80 ≤ b.toNat), err := .none,
                   errInfo := .none }) ∧
    (s.txPhase = .idle → 996 ≤ s.cmdLen →
      exec (.cmdPush b) s = .next { s with cmdOvf := true, err := .caller, errInfo := .cmdTooLong }) ∧
    (s.txPhase ≠ .idle → exec (.cmdPush b) s = .next { s with err := .caller, errInfo := .busy })

/-- R104: `TX_START m`, its checks in their order. -/
def Obligations.TxStartChecksInOrder : Prop :=
  ∀ (s : State) (m : Byte), exec (.txStart m) s = .next
    (if s.txPhase ≠ .idle then { s with err := .caller, errInfo := .busy }
     else if m ∉ [0x50#8, 0x53#8, 0x44#8] then { s with err := .caller, errInfo := .badMarker }
     else if s.cmdOvf = true then { s with err := .caller, errInfo := .cmdTooLong }
     else if s.cmdBad = true then { s with err := .caller, errInfo := .cmdNotAscii }
     else { s with txMarker := m, txIdx := 0, crc := 0xFFFF#16, txStream := [], txPhase := .m0, err := .none, errInfo := .none })

/-- R105 to R108, R111, R112: `TX_POP` in every phase but `BODY`: the byte emitted, the CRC register, the phase after. -/
def Obligations.TxPopOutsideTheBody : Prop :=
  ∀ s : State,
    (s.txPhase = .idle → exec .txPop s = .next { s with err := .caller, errInfo := .txIdle }) ∧
    (s.txPhase = .m0 → exec .txPop s = .next { s with
      txOut := 0x5E#8, txStream := s.txStream ++ [0x5E#8], crc := crcByte s.crc 0x5E#8, txPhase := .m1, err := .none,
      errInfo := .none }) ∧
    (s.txPhase = .m1 → exec .txPop s = .next { s with
      txOut := s.txMarker, txStream := s.txStream ++ [s.txMarker], crc := crcByte s.crc s.txMarker, txPhase := .l2, err := .none,
      errInfo := .none }) ∧
    (s.txPhase = .l2 → ∀ b, b = BitVec.ofNat 8 (0x30 + (s.cmdLen + 3) / 100) → exec .txPop s = .next { s with
      txOut := b, txStream := s.txStream ++ [b], crc := crcByte s.crc b, txPhase := .l1, err := .none, errInfo := .none }) ∧
    (s.txPhase = .l1 → ∀ b, b = BitVec.ofNat 8 (0x30 + (s.cmdLen + 3) / 10 % 10) → exec .txPop s = .next { s with
      txOut := b, txStream := s.txStream ++ [b], crc := crcByte s.crc b, txPhase := .l0, err := .none, errInfo := .none }) ∧
    (s.txPhase = .l0 → ∀ b, b = BitVec.ofNat 8 (0x30 + (s.cmdLen + 3) % 10) → exec .txPop s = .next { s with
      txOut := b, txStream := s.txStream ++ [b], crc := crcByte s.crc b,
      txPhase := if s.cmdLen = 0 then .crch else .body, err := .none, errInfo := .none }) ∧
    (s.txPhase = .crch → exec .txPop s = .next { s with
      txOut := s.crc.extractLsb' 8 8, txStream := s.txStream ++ [s.crc.extractLsb' 8 8], txPhase := .crcl, err := .none,
      errInfo := .none }) ∧
    (s.txPhase = .crcl → exec .txPop s = .next { s with
      txOut := s.crc.extractLsb' 0 8, txStream := s.txStream ++ [s.crc.extractLsb' 0 8], txPhase := .term, err := .none,
      errInfo := .none }) ∧
    (s.txPhase = .term → exec .txPop s = .next { s with
      txOut := 0x0D#8, txStream := s.txStream ++ [0x0D#8], txPhase := .idle, err := .none, errInfo := .none })

/-- R110: `TX_POP` in phase `BODY` emits the command byte at `tx_idx`; the bounds are those that `BuilderOk` and `BuffersOk` keep. -/
def Obligations.TxPopEmitsTheCommandByte : Prop :=
  ∀ s : State, s.txPhase = .body → s.txIdx < s.cmdLen → s.cmdLen ≤ 996 →
    ∀ b, b = Memory.read s.cmd s.txIdx → exec .txPop s = .next { s with
      txOut := b, txStream := s.txStream ++ [b], crc := crcByte s.crc b, txIdx := s.txIdx + 1,
      txPhase := if s.txIdx + 1 = s.cmdLen then .crch else .body, err := .none, errInfo := .none }

/-- R113: after a successful `TX_START`, `len(c) + 8` times `TX_POP` emit exactly `buildFrame(m, c)`, the next `TX_POP` is a caller
error, and operations outside the builder may stand anywhere between without changing it; every one of the `TX_POP`s succeeds. Where the
capture unit meets its invariants (no operation of the Line can then leave the buffer), the interleaved run completes. -/
def Obligations.FrameIsEmittedWhole : Prop :=
  ∀ (s : State) (m : Byte), s.txPhase = .idle → m ∈ [0x50#8, 0x53#8, 0x44#8] → s.cmdOvf = false → s.cmdBad = false →
    s.cmdLen ≤ 996 →
    ∃ t0, exec (.txStart m) s = .next t0 ∧
      (∃ t, runOps (List.replicate (s.cmdLen + 8) .txPop) t0 = .next t ∧ t.txStream = buildFrame m s.command ∧
        t.txPhase = .idle ∧ exec .txPop t = .next { t with err := .caller, errInfo := .txIdle }) ∧
      ∀ (ops : List Instr), (∀ i ∈ ops, i = .txPop ∨ outsideBuilder i = true) → ops.count .txPop = s.cmdLen + 8 →
        (BuffersOk s → CaptureOk s → ∃ u, runOps ops t0 = .next u ∧
          (∀ pre post, ops = pre ++ .txPop :: post → ∃ v, runOps (pre ++ [.txPop]) t0 = .next v ∧ v.err = .none)) ∧
        (∀ u, runOps ops t0 = .next u → u.txStream = buildFrame m s.command ∧ u.txPhase = .idle ∧
          exec .txPop u = .next { u with err := .caller, errInfo := .txIdle }) ∧
        (∀ pre post v, ops = pre ++ .txPop :: post → runOps (pre ++ [.txPop]) t0 = .next v → v.err = .none)

/-- R65: the layout of a frame, field by field. -/
def Obligations.FrameLayout : Prop :=
  ∀ (m : Byte) (c : ByteString), c.length ≤ 996 →
    (buildFrame m c).length = c.length + 8 ∧
    byteAt (buildFrame m c) 0 = 0x5E#8 ∧ byteAt (buildFrame m c) 1 = m ∧
    allDigits (slice (buildFrame m c) 2 5) = true ∧ num (slice (buildFrame m c) 2 5) = c.length + 3 ∧
    slice (buildFrame m c) 5 (5 + c.length) = c ∧
    ∀ k, k = crc16 ((buildFrame m c).take (5 + c.length)) →
      (buildFrame m c).drop (5 + c.length) = [k.extractLsb' 8 8, k.extractLsb' 0 8, 0x0D#8]

/-! ## The capture unit (42_rx_capture.md) -/

/-- R121: `RX_CLEAR` arms the capture in every state and clears every verdict and the record. -/
def Obligations.RxClearArmsTheCapture : Prop :=
  ∀ s : State, exec .rxClear s = .next { s with
    rxLen := 0, rxState := .capturing, rxEnd := .none, verdict := ⟨false, false, false, false, .none, 0, 0⟩,
    pay := ⟨false, false, 0, 0, false⟩, ack := .none, record := ⟨.none, false, false, .none⟩, err := .none, errInfo := .none }

/-- R122, R123: `RX_BYTE b` is stored while capturing, the terminator or the 1000th byte ending the capture, and dropped
otherwise. -/
def Obligations.RxByteIsStoredOrDropped : Prop :=
  ∀ (s : State) (b : Byte),
    (s.rxState = .capturing → s.rxLen ≤ 999 → Memory.wf s.rx = true → ∃ t, exec (.rxByte b) s = .next t ∧
      (∀ i, Memory.read t.rx i = if i = s.rxLen then b else Memory.read s.rx i) ∧
      t = { s with
        rx := t.rx, rxLen := s.rxLen + 1,
        rxState := if b = 0x0D#8 ∨ s.rxLen + 1 = 1000 then .done else .capturing,
        rxEnd := if b = 0x0D#8 then .term else if s.rxLen + 1 = 1000 then .overflow else s.rxEnd }) ∧
    (s.rxState ≠ .capturing → exec (.rxByte b) s = .next s)

/-- R124: `RX_TIMEOUT` ends a capture, as an error only when no byte arrived, and does nothing otherwise. -/
def Obligations.RxTimeoutEndsTheCapture : Prop :=
  ∀ s : State,
    (s.rxState = .capturing → s.rxLen = 0 → exec .rxTimeout s = .next { s with
      rxState := .done, rxEnd := .timeout, err := .timeout, errInfo := .noResponse,
      diag := s.diag ++ [⟨.eConn, .noResponse, 0x32#8⟩] }) ∧
    (s.rxState = .capturing → s.rxLen ≠ 0 → exec .rxTimeout s = .next { s with
      rxState := .done, rxEnd := .timeout, err := .none, errInfo := .none }) ∧
    (s.rxState ≠ .capturing → exec .rxTimeout s = .next s)

/-- R125 (d), R122, R123: a Response is the bytes the Line issued since `RX_CLEAR`, up to the terminator or the 1000th byte; later
bytes are dropped. -/
def Obligations.CaptureHoldsTheLinesBytes : Prop :=
  ∀ (s : State) (bs late : ByteString), Memory.wf s.rx = true → 0x0D#8 ∉ bs →
    (bs.length ≤ 999 →
      (∃ t, runOps (.rxClear :: bs.map .rxByte) s = .next t ∧ t.rxState = .capturing ∧ t.response = bs) ∧
      (∃ t, runOps (.rxClear :: (bs ++ 0x0D#8 :: late).map .rxByte) s = .next t ∧ t.rxState = .done ∧ t.rxEnd = .term ∧
        t.response = bs ++ [0x0D#8])) ∧
    (bs.length = 1000 →
      ∃ t, runOps (.rxClear :: (bs ++ late).map .rxByte) s = .next t ∧ t.rxState = .done ∧ t.rxEnd = .overflow ∧
        t.response = bs)

/-- 20_memory.md R56: from the end of a capture on, whatever operations but `RX_CLEAR` and `RESET` run, the Response does not change, and
an operation that judges it gives the same values later as at first: each register is written both times with the same value, or
neither time. -/
def Obligations.ResponseIsStable : Prop :=
  ∀ (ops : List Instr) (s t : State), s.rxState = .done → (∀ j ∈ ops, j ≠ .rxClear ∧ j ≠ .reset) → runOps ops s = .next t →
    t.rxState = .done ∧ t.rxEnd = s.rxEnd ∧ t.rxLen = s.rxLen ∧ t.rx = s.rx ∧
    ∀ (i : Instr) (s' t' : State), needsResponse i = true → exec i s = .next s' → exec i t = .next t' →
      t'.err = s'.err ∧ t'.errInfo = s'.errInfo ∧
      (t'.verdict = s'.verdict ∨ (s'.verdict = s.verdict ∧ t'.verdict = t.verdict)) ∧
      (t'.pay = s'.pay ∨ (s'.pay = s.pay ∧ t'.pay = t.pay)) ∧ (t'.ack = s'.ack ∨ (s'.ack = s.ack ∧ t'.ack = t.ack)) ∧
      (t'.record = s'.record ∨ (s'.record = s.record ∧ t'.record = t.record))

/-- R126: the operations that need a Response are refused without one. -/
def Obligations.OperationsNeedAResponse : Prop :=
  ∀ (s : State) (i : Instr), needsResponse i = true → s.rxState ≠ .done →
    exec i s = .next { s with err := .caller, errInfo := .notReady }

/-! ## The validator and the extractor (43_validator_extractor.md) -/

/-- R131: `validate`, for every tolerance: the four failures in their order, and the verdict of a valid Response. -/
def Obligations.ValidateFindsTheFirstFailure : Prop :=
  ∀ (T : Nat) (raw : ByteString),
    (raw = [] → validateAt T raw = ⟨false, .empty, false, false, 0⟩) ∧
    (raw ≠ [] → raw.take 2 ≠ [0x5E#8, 0x44#8] → validateAt T raw = ⟨false, .marker, false, false, 0⟩) ∧
    (raw.take 2 = [0x5E#8, 0x44#8] → (raw.length < 5 ∨ ∃ b ∈ slice raw 2 5, isDigit b = false) →
      validateAt T raw = ⟨false, .lenField, false, false, 0⟩) ∧
    (raw.take 2 = [0x5E#8, 0x44#8] → 5 ≤ raw.length → (∀ b ∈ slice raw 2 5, isDigit b = true) →
      ∀ L d, L = num (slice raw 2 5) → d = ((raw.length : Int) - (5 + L)).natAbs →
        (T < d → validateAt T raw = ⟨false, .length, false, false, L⟩) ∧
        (d ≤ T → validateAt T raw = ⟨true, .none, decide (1 ≤ d), decide (raw.getLast? ≠ some 0x0D#8), L⟩))

/-- R130: `VALIDATE` writes the verdict registers and the outcome, with the tolerance 2; the same part runs in `EXTRACT` and in the
decoders under their own opcode. -/
def Obligations.ValidateWritesTheVerdict : Prop :=
  (∀ s : State, s.rxState = .done → s.rxLen ≤ 1000 → exec .validate s = .next (validatePart 0x40#8 s.response s)) ∧
  (∀ s : State, s.rxState ≠ .done → exec .validate s = .next { s with err := .caller, errInfo := .notReady }) ∧
  ∀ (op : Byte) (raw : ByteString) (s : State) (v : Finding), v = validateAt 2 raw →
    (v.ok = true → validatePart op raw s = { s with
      verdict := ⟨true, true, v.soft, v.noterm, .none, v.declared, 5 + v.declared⟩, err := .none, errInfo := .none,
      diag := s.diag ++ (if v.soft then [⟨.eProto, .wLengthSoft, op⟩] else []) ++
        (if v.noterm then [⟨.eProto, .wNoterm, op⟩] else []) }) ∧
    (v.reason = .empty → validatePart op raw s = { s with
      verdict := ⟨true, false, false, false, .empty, 0, 0⟩, err := .protocol, errInfo := .vEmpty,
      diag := s.diag ++ [⟨.eProto, .vEmpty, op⟩] }) ∧
    (v.reason = .marker → validatePart op raw s = { s with
      verdict := ⟨true, false, false, false, .marker, 0, 0⟩, err := .protocol, errInfo := .vMarker,
      diag := s.diag ++ [⟨.eProto, .vMarker, op⟩] }) ∧
    (v.reason = .lenField → validatePart op raw s = { s with
      verdict := ⟨true, false, false, false, .lenField, 0, 0⟩, err := .protocol, errInfo := .vLenField,
      diag := s.diag ++ [⟨.eProto, .vLenField, op⟩] }) ∧
    (v.reason = .length → validatePart op raw s = { s with
      verdict := ⟨true, false, false, false, .length, v.declared, 5 + v.declared⟩, err := .protocol, errInfo := .vLength,
      diag := s.diag ++ [⟨.eProto, .vLength, op⟩] })

/-- R138: `extract`, for every tolerance and both readings of the declared length. -/
def Obligations.ExtractCutsThePayload : Prop :=
  ∀ (T : Nat) (trust : Trust) (raw : ByteString) (v : Finding) (trailer : Nat), v = validateAt T raw →
    trailer = (if raw.getLast? = some 0x0D#8 then 3 else 2) →
    (v.ok = false → extractAt T trust raw = none) ∧
    (v.ok = true →
      ((raw.length = 5 + v.declared ∨ trust = .withinTolerance) ∧ 3 ≤ v.declared ∧ 5 + (v.declared - 3) ≤ raw.length →
        extractAt T trust raw = some ⟨v.declared - 3, false⟩) ∧
      (¬((raw.length = 5 + v.declared ∨ trust = .withinTolerance) ∧ 3 ≤ v.declared ∧ 5 + (v.declared - 3) ≤ raw.length) →
        (raw.length < 5 + trailer → extractAt T trust raw = none) ∧
        (5 + trailer ≤ raw.length → extractAt T trust raw = some ⟨raw.length - 5 - trailer, true⟩)))

/-- R137: `EXTRACT` runs the validator part and writes the extractor's registers; the same part runs in the decoders under their own
opcode. -/
def Obligations.ExtractWritesThePayload : Prop :=
  (∀ s : State, s.rxState = .done → s.rxLen ≤ 1000 → exec .extract s = .next (extractPart 0x41#8 s.response s)) ∧
  (∀ s : State, s.rxState ≠ .done → exec .extract s = .next { s with err := .caller, errInfo := .notReady }) ∧
  ∀ (op : Byte) (raw : ByteString) (s u : State), u = validatePart op raw s →
    (extractAt 2 .clean raw = none → (validateAt 2 raw).ok = true → extractPart op raw s = { u with
      pay := ⟨true, true, 0, 0, false⟩, err := .protocol, errInfo := .xShort, diag := u.diag ++ [⟨.eProto, .xShort, op⟩] }) ∧
    (extractAt 2 .clean raw = none → (validateAt 2 raw).ok = false → extractPart op raw s = { u with
      pay := ⟨true, true, 0, 0, false⟩ }) ∧
    (∀ c : Cut, extractAt 2 .clean raw = some c → extractPart op raw s = { u with
      pay := ⟨true, false, 5, c.len, c.fallback⟩,
      diag := u.diag ++ (if c.fallback then [⟨.eProto, .xFallback, op⟩] else []) })

/-- R142: the payload of a built response is recovered, under every tolerance and both readings; and through the capture unit when the
frame fits and holds no early carriage return. -/
def Obligations.ExtractRecoversABuiltPayload : Prop :=
  ∀ p : ByteString, p.length ≤ 996 → (∀ b ∈ p, b.toNat < 0x80) →
    (∀ (T : Nat) (trust : Trust), extractAt T trust (buildFrame 0x44#8 p) = some ⟨p.length, false⟩) ∧
    slice (buildFrame 0x44#8 p) 5 (5 + p.length) = p ∧
    (p.length ≤ 992 → 0x0D#8 ∉ (buildFrame 0x44#8 p).dropLast → ∀ s : State, Memory.wf s.rx = true →
      ∃ t, runOps ([.rxClear] ++ (buildFrame 0x44#8 p).map .rxByte ++ [.extract]) s = .next t ∧
        t.pay = ⟨true, false, 5, p.length, false⟩ ∧ slice t.response 5 (5 + p.length) = p ∧ t.err = .none)

/-- R141: what the extractor returns for a data frame damaged as the tolerance admits, row by row, under both readings of the declared
length; the payload returned is the bytes from the sixth on. -/
def Obligations.DamagedFrameExtraction : Prop :=
  ∀ (p h : ByteString) (kh kl : Byte), p.length ≤ 996 → h = [0x5E#8, 0x44#8] ++ dec3 (p.length + 3) →
    (∀ trust, extractAt 2 trust (h ++ p ++ [kh, kl, 0x0D#8]) = some ⟨p.length, false⟩) ∧
    (∀ kl', kl' ≠ 0x0D#8 → extractAt 2 .clean (h ++ p ++ [kh, kl']) = some ⟨p.length, true⟩) ∧
    (∀ kh', kh' ≠ 0x0D#8 → extractAt 2 .clean (h ++ p ++ [kh']) = if p = [] then none else some ⟨p.length - 1, true⟩) ∧
    extractAt 2 .clean (h ++ p ++ [0x0D#8]) = (if p.length < 2 then none else some ⟨p.length - 2, true⟩) ∧
    extractAt 2 .clean (h ++ p ++ [kh, 0x0D#8]) = (if p = [] then none else some ⟨p.length - 1, true⟩) ∧
    (∀ q, q ∈ [[kh], [kh, kl], [0x0D#8], [kh, 0x0D#8]] → extractAt 2 .withinTolerance (h ++ p ++ q) = some ⟨p.length, false⟩) ∧
    ∀ q : ByteString, q.length + 1 = p.length ∨ q.length = p.length + 1 →
      extractAt 2 .clean (h ++ q ++ [kh, kl, 0x0D#8]) = some ⟨q.length, true⟩ ∧
      extractAt 2 .withinTolerance (h ++ q ++ [kh, kl, 0x0D#8]) = some ⟨p.length, false⟩

/-- R143: the CRC of a Response is never verified: only the length, the first five bytes and the last byte decide. -/
def Obligations.VerdictIgnoresTheCrc : Prop :=
  ∀ (T : Nat) (trust : Trust) (raw raw' : ByteString), raw'.length = raw.length → raw'.take 5 = raw.take 5 →
    raw'.getLast? = raw.getLast? → validateAt T raw' = validateAt T raw ∧ extractAt T trust raw' = extractAt T trust raw

/-- 44_ack.md R150: `ACK_CHECK` looks at the first two bytes and at nothing else. -/
def Obligations.AckCheckReadsTwoBytes : Prop :=
  ∀ s : State,
    (s.rxState = .done → s.rxLen ≤ 1000 → exec .ackCheck s = .next
      (if 2 ≤ s.rxLen ∧ Memory.read s.rx 0 = 0x5E#8 ∧ Memory.read s.rx 1 = 0x31#8 then
        { s with ack := .accepted, err := .none, errInfo := .none }
       else { s with ack := .refused, err := .refused, errInfo := .notAck })) ∧
    (s.rxState ≠ .done → exec .ackCheck s = .next { s with err := .caller, errInfo := .notReady })

/-! ## The decoders (45_field_decoders.md) -/

/-- R160: the nine decoders of the common frame, without a payload and with an empty one. -/
def Obligations.DecodersWithoutAPayload : Prop :=
  ∀ (s : State) (d : Instr × RecTag), d ∈ payloadDecoders → s.rxState = .done → s.rxLen ≤ 1000 →
    ∀ u, u = extractPart (opcode d.1) s.response s →
    (extractAt 2 .clean s.response = none → exec d.1 s = .next { u with record := ⟨d.2, true, false, .none⟩ }) ∧
    (∀ fallback, extractAt 2 .clean s.response = some ⟨0, fallback⟩ → exec d.1 s = .next { u with
      record := ⟨d.2, true, false, .none⟩, err := .parse, errInfo := .pShort,
      diag := u.diag ++ [⟨.eParse, .pShort, opcode d.1⟩] })

/-- R163: `DEC_PROTOCOL_ID`. -/
def Obligations.DecProtocolIdTakesThePayload : Prop :=
  ∀ (s : State) (c : Cut), s.rxState = .done → s.rxLen ≤ 1000 → extractAt 2 .clean s.response = some c → 0 < c.len →
    ∀ u, u = extractPart 0x50#8 s.response s → exec .decProtocolId s = .next { u with
      record := ⟨.protocolId, false, false, .protocolId ⟨5, c.len⟩⟩, err := .none, errInfo := .none }

/-- R165, R166, R167: `DEC_STATUS`, whatever the OPEN tables hold: the fields, an overlay value for every entry of `GS_MAP`, the one
warning for a number field that is none (log 8), and the code enumerations. `fieldOf` is the field an entry names; where the payload
lacks it, a free value (log 23), whatever that is. With fewer than 28 fields the record is null and, as 10_state.md R37 says, no field of
it holds a value (log 9, DEDUCED: R165 names some before it gives up). -/
def Obligations.DecStatusReadsTheFields : Prop :=
  (∀ (s : State) (c : Cut), s.rxState = .done → s.rxLen ≤ 1000 → extractAt 2 .clean s.response = some c → 0 < c.len →
    ∀ u f, u = extractPart 0x51#8 s.response s → f = split 0x2C#8 (slice s.response 5 (5 + c.len)) →
    (f.length < 28 → exec .decStatus s = .next { u with
      record := ⟨.status, true, false, .none⟩, err := .parse, errInfo := .pShort,
      diag := u.diag ++ [⟨.eParse, .pShort, 0x51#8⟩] }) ∧
    (28 ≤ f.length → ∀ (fieldOf : GsEntry → Option ByteString) overlay fails,
      (∀ e, (e.index < f.length → fieldOf e = some (f.getD e.index [])) ∧
        (f.length ≤ e.index → fieldOf e = Config.gsMissing e f)) →
      overlay = Config.gsMap.map (fun e => (e.name,
        match fieldOf e with
        | some g => gsValue Config.directionNames e.kind g
        | none => .absent)) →
      (fails = true ↔ ∃ e ∈ Config.gsMap, (e.kind = .int ∨ e.kind = .tenth) ∧ ∃ g, fieldOf e = some g ∧ numField g = none) →
      exec .decStatus s = .next { u with
        record := ⟨.status, false, fails, .status f.length (fieldSlices 5 f) overlay⟩, err := .none, errInfo := .none,
        diag := u.diag ++ (if fails then [⟨.eParse, .pField, 0x51#8⟩] else []) })) ∧
  (∀ (names : DirField → DirCode → ByteString) (d : DirField) (f : ByteString),
    gsValue names .int f = .int (numField f) ∧ gsValue names .tenth f = .tenth (numField f) ∧
    gsValue names .flag f = .flag (decide (f = [0x31#8])) ∧
    (numField f = some 0 → gsValue names .mppt f = .mppt .abnormal ∧ gsValue names (.dir d) f = .dir .doNothing) ∧
    (numField f = some 1 → gsValue names .mppt f = .mppt .normal ∧ gsValue names (.dir d) f = .dir (.named (names d .one))) ∧
    (numField f = some 2 → gsValue names .mppt f = .mppt .charging ∧ gsValue names (.dir d) f = .dir (.named (names d .two))) ∧
    (numField f ≠ some 0 → numField f ≠ some 1 → numField f ≠ some 2 →
      gsValue names .mppt f = .mppt .unknown ∧ gsValue names (.dir d) f = .dir .unknown))

/-- R164: `DEC_MODE`. -/
def Obligations.DecModeReadsTheDigit : Prop :=
  ∀ (s : State) (c : Cut), s.rxState = .done → s.rxLen ≤ 1000 → extractAt 2 .clean s.response = some c → 0 < c.len →
    ∀ u p, u = extractPart 0x52#8 s.response s → p = slice s.response 5 (5 + c.len) →
    exec .decMode s = .next
      (if c.len < 5 then { u with
        record := ⟨.mode, true, false, .none⟩, err := .parse, errInfo := .pShort,
        diag := u.diag ++ [⟨.eParse, .pShort, 0x52#8⟩] }
       else if p.take 4 ≠ [0x4D#8, 0x4F#8, 0x44#8, 0x2C#8] ∨ isDigit (byteAt p 4) = false then { u with
        record := ⟨.mode, true, false, .none⟩, err := .parse, errInfo := .pFormat,
        diag := u.diag ++ [⟨.eParse, .pFormat, 0x52#8⟩] }
       else { u with
        record := ⟨.mode, false, false, .mode ((byteAt p 4).toNat - 0x30)
          ([ModeName.powerOn, .standby, .bypass, .battery, .fault, .hybrid].getD ((byteAt p 4).toNat - 0x30) .unknown)⟩,
        err := .none, errInfo := .none })

/-- R168: `DEC_FAULT`. With fewer than 17 fields the record is null and, as 10_state.md R37 says, no field of it holds a value (log 9,
DEDUCED: R168 names some before it gives up). -/
def Obligations.DecFaultReadsCodeAndFlags : Prop :=
  ∀ (s : State) (c : Cut), s.rxState = .done → s.rxLen ≤ 1000 → extractAt 2 .clean s.response = some c → 0 < c.len →
    ∀ u f flags, u = extractPart 0x53#8 s.response s → f = split 0x2C#8 (slice s.response 5 (5 + c.len)) →
    flags = (List.range 16).map (fun i => decide (f[i + 1]? = some [0x31#8])) →
    (f.length < 17 → exec .decFault s = .next { u with
      record := ⟨.fault, true, false, .none⟩, err := .parse, errInfo := .pShort,
      diag := u.diag ++ [⟨.eParse, .pShort, 0x53#8⟩] }) ∧
    (17 ≤ f.length → numField (f.getD 0 []) = none → exec .decFault s = .next { u with
      record := ⟨.fault, false, true, .fault f.length (fieldSlices 5 f) none flags⟩, err := .parse, errInfo := .pField,
      diag := u.diag ++ [⟨.eParse, .pField, 0x53#8⟩] }) ∧
    (17 ≤ f.length → ∀ n, numField (f.getD 0 []) = some n → exec .decFault s = .next { u with
      record := ⟨.fault, false, false, .fault f.length (fieldSlices 5 f) (some n) flags⟩, err := .none, errInfo := .none })

/-- R170: `DEC_SERIAL`: the prefix names the length of the serial number, or the whole payload is the identifier. -/
def Obligations.DecSerialChecksThePrefix : Prop :=
  ∀ (s : State) (c : Cut), s.rxState = .done → s.rxLen ≤ 1000 → extractAt 2 .clean s.response = some c → 0 < c.len →
    ∀ u p N, u = extractPart 0x54#8 s.response s → p = slice s.response 5 (5 + c.len) → N = num (p.take 2) →
    (2 ≤ c.len → allDigits (p.take 2) = true → 2 + N ≤ c.len → exec .decSerial s = .next { u with
      record := ⟨.serial, false, false, .serial (some N) ⟨7, N⟩ true⟩, err := .none, errInfo := .none }) ∧
    (2 ≤ c.len → allDigits (p.take 2) = true → c.len < 2 + N → exec .decSerial s = .next { u with
      record := ⟨.serial, false, true, .serial (some N) ⟨5, c.len⟩ false⟩, err := .none, errInfo := .none,
      diag := u.diag ++ [⟨.eParse, .pLengthMismatch, 0x54#8⟩] }) ∧
    (c.len < 2 ∨ allDigits (p.take 2) = false → exec .decSerial s = .next { u with
      record := ⟨.serial, false, true, .serial none ⟨5, c.len⟩ false⟩, err := .none, errInfo := .none,
      diag := u.diag ++ [⟨.eParse, .pFormat, 0x54#8⟩] })

/-- R171: `DEC_FIRMWARE`: three strings, or those that are there. -/
def Obligations.DecFirmwareReadsThreeStrings : Prop :=
  ∀ (s : State) (c : Cut), s.rxState = .done → s.rxLen ≤ 1000 → extractAt 2 .clean s.response = some c → 0 < c.len →
    ∀ u f, u = extractPart 0x55#8 s.response s → f = split 0x2C#8 (slice s.response 5 (5 + c.len)) →
    (∀ f0 f1 f2 more, f = f0 :: f1 :: f2 :: more → exec .decFirmware s = .next { u with
      record := ⟨.firmware, false, false, .firmware ⟨5, f0.length⟩ (some ⟨6 + f0.length, f1.length⟩)
        (some ⟨7 + f0.length + f1.length, f2.length⟩)⟩, err := .none, errInfo := .none }) ∧
    (∀ f0 f1, f = [f0, f1] → exec .decFirmware s = .next { u with
      record := ⟨.firmware, false, true, .firmware ⟨5, f0.length⟩ (some ⟨6 + f0.length, f1.length⟩) none⟩, err := .parse,
      errInfo := .pShort, diag := u.diag ++ [⟨.eParse, .pShort, 0x55#8⟩] }) ∧
    (∀ f0, f = [f0] → exec .decFirmware s = .next { u with
      record := ⟨.firmware, false, true, .firmware ⟨5, f0.length⟩ none none⟩, err := .parse, errInfo := .pShort,
      diag := u.diag ++ [⟨.eParse, .pShort, 0x55#8⟩] })

/-- R172, R173: `DEC_RATED`, whatever the OPEN tables hold: always a record, the overlay of the entries of `RATED_MAP` below index 25
(log 7), a warning for a number field in the payload that is none (log 22), then the error when fields are missing. -/
def Obligations.DecRatedDegradesToAPartialRecord : Prop :=
  ∀ (s : State) (c : Cut), s.rxState = .done → s.rxLen ≤ 1000 → extractAt 2 .clean s.response = some c → 0 < c.len →
    ∀ u f overlay fails, u = extractPart 0x56#8 s.response s → f = split 0x2C#8 (slice s.response 5 (5 + c.len)) →
    overlay = (Config.ratedMap.filter (fun e => decide (e.index < 25))).map
      (fun e => (e.name, if e.index < f.length then
        (match e.kind with
         | .int => RatedValue.int (numField (f.getD e.index []))
         | .tenth => RatedValue.tenth (numField (f.getD e.index []))
         | .enum table =>
           match numField (f.getD e.index []) with
           | none => RatedValue.unknown
           | some code => ((Config.ratedEnums table code).map RatedValue.named).getD RatedValue.unknown)
        else RatedValue.absent)) →
    (fails = true ↔ ∃ e ∈ Config.ratedMap, e.index < 25 ∧ e.index < f.length ∧ (e.kind = .int ∨ e.kind = .tenth) ∧
      numField (f.getD e.index []) = none) →
    (21 ≤ f.length → exec .decRated s = .next { u with
      record := ⟨.rated, false, fails, .rated f.length (fieldSlices 5 f) overlay⟩, err := .none, errInfo := .none,
      diag := u.diag ++ (if fails then [⟨.eParse, .pField, 0x56#8⟩] else []) }) ∧
    (f.length < 21 → exec .decRated s = .next { u with
      record := ⟨.rated, false, true, .rated f.length (fieldSlices 5 f) overlay⟩, err := .parse, errInfo := .pShort,
      diag := u.diag ++ (if fails then [⟨.eParse, .pField, 0x56#8⟩] else []) ++ [⟨.eParse, .pShort, 0x56#8⟩] })

/-- R174: `DEC_MODEL`, whatever `MODEL_TABLE` holds; a code that it lacks has the name `Unknown model`, in ASCII. -/
def Obligations.DecModelLooksUpTwoBytes : Prop :=
  ∀ (s : State) (c : Cut), s.rxState = .done → s.rxLen ≤ 1000 → extractAt 2 .clean s.response = some c → 0 < c.len →
    ∀ u p, u = extractPart 0x57#8 s.response s → p = slice s.response 5 (5 + c.len) →
    (c.len < 2 → exec .decModel s = .next { u with
      record := ⟨.model, true, false, .none⟩, err := .parse, errInfo := .pShort,
      diag := u.diag ++ [⟨.eParse, .pShort, 0x57#8⟩] }) ∧
    (2 ≤ c.len → ∀ name, Config.modelTable (p.take 2) = some name → exec .decModel s = .next { u with
      record := ⟨.model, false, false, .model ⟨5, 2⟩ true name⟩, err := .none, errInfo := .none }) ∧
    (2 ≤ c.len → Config.modelTable (p.take 2) = none → exec .decModel s = .next { u with
      record := ⟨.model, false, false, .model ⟨5, 2⟩ false
        [0x55#8, 0x6E#8, 0x6B#8, 0x6E#8, 0x6F#8, 0x77#8, 0x6E#8, 0x20#8, 0x6D#8, 0x6F#8, 0x64#8, 0x65#8, 0x6C#8]⟩,
      err := .none, errInfo := .none })

/-- R175: `DEC_TIME`: fourteen digits in the grouping 4-2-2-2-2-2, no calendar check. -/
def Obligations.DecTimeReadsFourteenDigits : Prop :=
  ∀ (s : State) (c : Cut), s.rxState = .done → s.rxLen ≤ 1000 → extractAt 2 .clean s.response = some c → 0 < c.len →
    ∀ u p, u = extractPart 0x58#8 s.response s → p = slice s.response 5 (5 + c.len) →
    (c.len < 14 → exec .decTime s = .next { u with
      record := ⟨.time, true, false, .none⟩, err := .parse, errInfo := .pShort,
      diag := u.diag ++ [⟨.eParse, .pShort, 0x58#8⟩] }) ∧
    (14 ≤ c.len → (∃ b ∈ p.take 14, isDigit b = false) → exec .decTime s = .next { u with
      record := ⟨.time, true, false, .none⟩, err := .parse, errInfo := .pFormat,
      diag := u.diag ++ [⟨.eParse, .pFormat, 0x58#8⟩] }) ∧
    (∀ y mo d h mi sec more : ByteString, p = y ++ mo ++ d ++ h ++ mi ++ sec ++ more → y.length = 4 → mo.length = 2 →
      d.length = 2 → h.length = 2 → mi.length = 2 → sec.length = 2 →
      allDigits (y ++ mo ++ d ++ h ++ mi ++ sec) = true → exec .decTime s = .next { u with
        record := ⟨.time, false, false, .time (num y) (num mo) (num d) (num h) (num mi) (num sec)
          (y ++ [0x2D#8] ++ mo ++ [0x2D#8] ++ d ++ [0x54#8] ++ h ++ [0x3A#8] ++ mi ++ [0x3A#8] ++ sec)⟩,
        err := .none, errInfo := .none })

/-- R176, R177: `DEC_SCHEDULE` reads nine bytes or falls back to the all-day default; with a Response it never ends with an error. The
times as text are the payload's own digits, and those of the default are 00:00 and 23:59. -/
def Obligations.DecScheduleNeverFails : Prop :=
  (∀ s : State, s.rxState ≠ .done → exec .decSchedule s = .next { s with err := .caller, errInfo := .notReady }) ∧
  (∀ s : State, s.rxState = .done → s.rxLen ≤ 1000 → ∀ u, u = extractPart 0x59#8 s.response s →
    (extractAt 2 .clean s.response = none → exec .decSchedule s = .next { u with
      record := ⟨.schedule, false, false, .schedule 0 0 23 59 true true⟩, err := .none, errInfo := .none }) ∧
    ∀ (c : Cut) (p : ByteString), extractAt 2 .clean s.response = some c → p = slice s.response 5 (5 + c.len) →
      (∀ (sh sm eh em more : ByteString) (e : Byte), p = sh ++ sm ++ eh ++ em ++ e :: more → sh.length = 2 → sm.length = 2 →
        eh.length = 2 → em.length = 2 → allDigits (sh ++ sm ++ eh ++ em) = true → e = 0x30#8 ∨ e = 0x31#8 →
        exec .decSchedule s = .next { u with
          record := ⟨.schedule, false, false, .schedule (num sh) (num sm) (num eh) (num em) (decide (e = 0x31#8)) false⟩,
          err := .none, errInfo := .none } ∧
        timeText (num sh) (num sm) = sh ++ [0x3A#8] ++ sm ∧ timeText (num eh) (num em) = eh ++ [0x3A#8] ++ em) ∧
      (c.len < 9 → exec .decSchedule s = .next { u with
        record := ⟨.schedule, false, false, .schedule 0 0 23 59 true true⟩, err := .none, errInfo := .none,
        diag := u.diag ++ [⟨.eParse, .pShort, 0x59#8⟩] }) ∧
      (9 ≤ c.len → (∃ b ∈ p.take 8, isDigit b = false) ∨ (byteAt p 8 ≠ 0x30#8 ∧ byteAt p 8 ≠ 0x31#8) →
        exec .decSchedule s = .next { u with
          record := ⟨.schedule, false, false, .schedule 0 0 23 59 true true⟩, err := .none, errInfo := .none,
          diag := u.diag ++ [⟨.eParse, .pFormat, 0x59#8⟩] })) ∧
  timeText 0 0 = [0x30#8, 0x30#8, 0x3A#8, 0x30#8, 0x30#8] ∧ timeText 23 59 = [0x32#8, 0x33#8, 0x3A#8, 0x35#8, 0x39#8]

/-- R178: `DEC_ENERGY` works on the whole Response and writes no verdict; it takes the maximal digit run at the leftmost match, in the
letters and digits of the Response. -/
def Obligations.DecEnergyReadsTheDigitRun : Prop :=
  (∀ s : State, s.rxState ≠ .done → exec .decEnergy s = .next { s with err := .caller, errInfo := .notReady }) ∧
  ∀ (s : State) (str : ByteString) (isMatch : Nat → Prop), s.rxState = .done → s.rxLen ≤ 1000 → str = s.response.filter isAlnum →
    (∀ i, isMatch i ↔ i + 4 < str.length ∧ str[i]? = some 0x44#8 ∧ allDigits (slice str (i + 1) (i + 5)) = true) →
    ((∀ i, ¬isMatch i) → exec .decEnergy s = .next { s with
      record := ⟨.energy, true, false, .none⟩, err := .parse, errInfo := .pFormat,
      diag := s.diag ++ [⟨.eParse, .pFormat, 0x5A#8⟩] }) ∧
    ∀ (i j : Nat) (run : ByteString), isMatch i → (∀ k, k < i → ¬isMatch k) → i + 5 ≤ j → j ≤ str.length →
      run = slice str (i + 4) j → allDigits run = true → (j < str.length → isDigit (byteAt str j) = false) →
      exec .decEnergy s = .next { s with
        record := ⟨.energy, false, false, .energy (num run) (num run / 1000) (num run % 1000)⟩, err := .none, errInfo := .none }

/-- R178, D35: the digit run is the maximal one at the leftmost match of a letter D with four digits after it. -/
def Obligations.EnergyRunIsTheLeftmostMatch : Prop :=
  ∀ s run : ByteString, energyRun s = some run ↔
    ∃ i j, i + 4 < s.length ∧ s[i]? = some 0x44#8 ∧ allDigits (slice s (i + 1) (i + 5)) = true ∧
      (∀ i', i' < i → ¬(i' + 4 < s.length ∧ s[i']? = some 0x44#8 ∧ allDigits (slice s (i' + 1) (i' + 5)) = true)) ∧
      i + 5 ≤ j ∧ j ≤ s.length ∧ run = slice s (i + 4) j ∧ allDigits run = true ∧
      (j < s.length → isDigit (byteAt s j) = false)

/-- 00_scope.md R7 and R171: splitting at commas loses nothing, and each slice of a payload names the field it stands for. -/
def Obligations.FieldSlicesNameTheFields : Prop :=
  ∀ (head p rest : ByteString) (f : List ByteString), f = split 0x2C#8 p →
    f.length = p.count 0x2C#8 + 1 ∧ List.intercalate [0x2C#8] f = p ∧ (∀ g ∈ f, 0x2C#8 ∉ g) ∧
    (fieldSlices head.length f).map (Slice.text (head ++ p ++ rest)) = f

/-! ## The whole block -/

/-- 10_state.md R12, R13, 20_memory.md R40: the lengths stay in range and both buffers keep their canonical form, in every step. -/
def Obligations.StepKeepsTheBuffers : Prop :=
  ∀ s t : State, BuffersOk s → step s = .next t → BuffersOk t

/-- 41_frame_builder.md R106 to R113: in every step the bytes emitted stay the first bytes of the frame of the command held, and the
CRC register their checksum. -/
def Obligations.StepKeepsTheBuilder : Prop :=
  ∀ s t : State, BuffersOk s → BuilderOk s → step s = .next t → BuilderOk t

/-- 42_rx_capture.md R125 (a) to (c): in every step, what a Response is guaranteed to be. -/
def Obligations.StepKeepsTheCapture : Prop :=
  ∀ s t : State, BuffersOk s → CaptureOk s → step s = .next t → CaptureOk t

/-- 10_state.md R19, R20, R21: in every step the verdict registers are cleared or describe the Response now held. -/
def Obligations.StepKeepsTheVerdicts : Prop :=
  ∀ s t : State, VerdictOk s → step s = .next t → VerdictOk t

/-- 10_state.md R30 to R37: in every step the record is absent or fits its tag, a null record has no fields, text lies inside the
Response, numbers in their ranges. -/
def Obligations.StepKeepsTheRecord : Prop :=
  ∀ s t : State, BuffersOk s → RecordOk s → step s = .next t → RecordOk t

/-- The state after power-on reset meets every invariant. -/
def Obligations.ResetMeetsTheInvariants : Prop := Invariant State.reset

/-- 60_exceptions.md R231: no step from a state that meets the invariants stops, whatever word is presented. -/
def Obligations.NoStepStops : Prop :=
  ∀ s : State, BuffersOk s → BuilderOk s → CaptureOk s → Completes (step s)

/-- 60_exceptions.md R223, R224, 10_state.md R23: an operation reports only errors of its row, with the class of their detail, and the
log only grows, by entries of its row under its own opcode. -/
def Obligations.OutcomesAreThoseOfTheTable : Prop :=
  ∀ (i : Instr) (s t : State), exec i s = .next t →
    ((writesOutcome i = false ∧ t.err = s.err ∧ t.errInfo = s.errInfo) ∨ (t.err = .none ∧ t.errInfo = .none) ∨
      (t.errInfo ∈ errorsOf i ∧ t.errInfo.errClass = some t.err)) ∧
    ∃ new, t.diag = s.diag ++ new ∧
      ∀ e ∈ new, e.op = opcode i ∧ e.detail ∈ errorsOf i ++ warningsOf i ∧ e.detail.diagCode = some e.code

/-- 60_exceptions.md R221, 10_state.md R22: every Host operation but `NOP` writes `err` and `err_info` on every execution, and `NOP`
and `RX_BYTE` never do. -/
def Obligations.HostOperationsWriteTheOutcome : Prop :=
  (∀ (i : Instr) (s : State) (e : ErrClass) (d : Detail), writesOutcome i = true →
    exec i { s with err := e, errInfo := d } = exec i s) ∧
  (∀ (i : Instr) (s t : State), (i = .nop ∨ ∃ b, i = .rxByte b) → exec i s = .next t → t.err = s.err ∧ t.errInfo = s.errInfo)

/-- 20_memory.md R42: only `CMD_PUSH` writes a byte of `cmd` and only `RX_BYTE` a byte of `rx`. That `RESET` writes none is the model's
reading (log 4). -/
def Obligations.OnlyPushAndByteWriteTheBuffers : Prop :=
  ∀ (i : Instr) (s t : State), exec i s = .next t →
    ((∀ b, i ≠ .cmdPush b) → t.cmd = s.cmd) ∧ ((∀ b, i ≠ .rxByte b) → t.rx = s.rx)

/-- The model's own field (log 1): a step without a presented word waits, and no operation reads or writes the words not yet presented. -/
def Obligations.OperationsLeaveTheInboxAlone : Prop :=
  (∀ s : State, s.inbox = [] → step s = .next s) ∧
  ∀ (i : Instr) (s : State) (ps : List Presented),
    exec i { s with inbox := ps } =
      (match exec i s with
       | .next t => .next { t with inbox := ps }
       | .fault r => .fault r
       | .refused r => .refused r)

/-- 20_memory.md R41: no operation observes a buffer byte at or above the length, so the bytes that the model gives an unwritten buffer
(log 3) decide nothing. -/
def Obligations.BytesAboveTheLengthAreUnobservable : Prop :=
  ∀ (i : Instr) (s t s' : State), Memory.wf s.cmd = true → Memory.wf s.rx = true → Memory.wf t.cmd = true →
    Memory.wf t.rx = true → (s.txPhase = .body → s.txIdx < s.cmdLen) → SameBelowLengths s t → exec i s = .next s' →
    ∃ t', exec i t = .next t' ∧ SameBelowLengths s' t'
end

