-- ==== Sys2Proof/Laws/Decode.lean ====
section
/-! SUPPORT. The laws of the op word: its two fields determine it, and what the operand checks answer. -/

namespace Sys2Proof

@[simp] theorem opcodeField_append (a b : Byte) : opcodeField (a ++ b) = a := by
  change @BitVec.extractLsb' (8 + 8) 8 8 (a ++ b) = a
  ext i hi
  rw [BitVec.getElem_extractLsb', BitVec.getLsbD_append]
  simp [BitVec.getLsbD_eq_getElem, hi]

@[simp] theorem immField_append (a b : Byte) : immField (a ++ b) = b := by
  change @BitVec.extractLsb' (8 + 8) 0 8 (a ++ b) = b
  ext i hi
  rw [BitVec.getElem_extractLsb', BitVec.getLsbD_append]
  simp [BitVec.getLsbD_eq_getElem, hi]

/-- The two fields make the word. -/
theorem opcodeField_append_immField (w : OpWord) : opcodeField w ++ immField w = w := by
  apply BitVec.eq_of_getLsbD_eq
  intro i hi
  rw [BitVec.getLsbD_append, opcodeField, immField, BitVec.getLsbD_extractLsb', BitVec.getLsbD_extractLsb']
  by_cases h : i < 8
  · simp [h]
  · simp only [h, decide_false]
    rw [show 8 + (i - 8) = i by omega]
    simp
    omega

@[simp] theorem opcodeField_encode (i : Instr) : opcodeField (encode i) = opcode i := opcodeField_append _ _

@[simp] theorem immField_encode (i : Instr) : immField (encode i) = operandByte i := immField_append _ _

theorem noOperand_eq_ok {b : Byte} {i j : Instr} : noOperand b i = .ok j ↔ b = 0x00#8 ∧ i = j := by
  unfold noOperand
  split <;> simp [*]

theorem noOperand_eq_error {b : Byte} {i : Instr} {r : Reserved} :
    noOperand b i = .error r ↔ b ≠ 0x00#8 ∧ Reserved.operandNotZero = r := by
  unfold noOperand
  split <;> simp [*]

theorem bitOperand_eq_ok {b : Byte} {j : Instr} : bitOperand b = .ok j ↔ b.extractLsb' 1 7 = 0#7 ∧ Instr.crcBit b = j := by
  unfold bitOperand
  split <;> simp [*]

theorem bitOperand_eq_error {b : Byte} {r : Reserved} :
    bitOperand b = .error r ↔ b.extractLsb' 1 7 ≠ 0#7 ∧ Reserved.crcBitOperand = r := by
  unfold bitOperand
  split <;> simp [*]

/-- The decoder on the two fields of a word that is written as one. -/
theorem decode_eq {w : OpWord} {op imm : Byte} (h1 : opcodeField w = op) (h2 : immField w = imm) : decode w = decode (op ++ imm) := by
  subst h1 h2
  rw [opcodeField_append_immField]

end Sys2Proof
end

