-- ==== Sys2Proof/Laws/Memory.lean ====
section
/-! SUPPORT. The laws of the buffers: a read after a write, the canonical form kept by every write, and the byte string below a length. -/

namespace Sys2Proof.Machine

@[simp] theorem Memory.read_nil (a : Nat) : Memory.read [] a = 0#8 := rfl

theorem Memory.read_cons (k a : Nat) (v : Byte) (m : Memory) :
    Memory.read ((k, v) :: m) a = if a = k then v else Memory.read m a := rfl

theorem Memory.wfFrom_cons (lo k : Nat) (v : Byte) (m : Memory) :
    Memory.wfFrom lo ((k, v) :: m) = true ↔ lo ≤ k ∧ v ≠ 0#8 ∧ Memory.wfFrom (k + 1) m = true := by
  simp [Memory.wfFrom, unlistedByte, and_assoc]

theorem Memory.wfFrom_mono {lo lo' : Nat} {m : Memory} (h : Memory.wfFrom lo m = true) (hle : lo' ≤ lo) :
    Memory.wfFrom lo' m = true := by
  cases m with
  | nil => rfl
  | cons c m =>
    obtain ⟨k, v⟩ := c
    rw [Memory.wfFrom_cons] at h ⊢
    exact ⟨by omega, h.2⟩

/-- An index below every listed one reads as the unlisted byte. -/
theorem Memory.read_below {lo a : Nat} {m : Memory} (h : Memory.wfFrom lo m = true) (ha : a < lo) :
    Memory.read m a = 0#8 := by
  induction m generalizing lo with
  | nil => rfl
  | cons c m ih =>
    obtain ⟨k, v⟩ := c
    rw [Memory.wfFrom_cons] at h
    rw [Memory.read_cons, if_neg (by omega)]
    exact ih h.2.2 (by omega)

/-- A read after a write to the same index gives the byte written. -/
theorem Memory.read_write_same {lo : Nat} {m : Memory} (h : Memory.wfFrom lo m = true) (a : Nat) (b : Byte) :
    Memory.read (Memory.write m a b) a = b := by
  induction m generalizing lo with
  | nil => by_cases hb : b = 0#8 <;> simp [Memory.write, Memory.read, unlistedByte, hb]
  | cons c m ih =>
    obtain ⟨k, v⟩ := c
    rw [Memory.wfFrom_cons] at h
    simp only [Memory.write]
    split
    · split
      · rename_i hlt hb
        rw [Memory.read_cons, if_neg (by omega), Memory.read_below h.2.2 (by omega)]; exact hb.symm
      · simp [Memory.read_cons]
    · split
      · rename_i heq
        split
        · rename_i hb
          rw [Memory.read_below h.2.2 (by omega)]; exact hb.symm
        · simp [Memory.read_cons, heq]
      · rename_i hne
        rw [Memory.read_cons, if_neg hne]
        exact ih h.2.2

/-- A write leaves every other index alone. -/
theorem Memory.read_write_other (m : Memory) {a i : Nat} (b : Byte) (hne : i ≠ a) :
    Memory.read (Memory.write m a b) i = Memory.read m i := by
  induction m with
  | nil => by_cases hb : b = 0#8 <;> simp [Memory.write, Memory.read, unlistedByte, hb, hne]
  | cons c m ih =>
    obtain ⟨k, v⟩ := c
    simp only [Memory.write]
    split
    · split <;> simp [Memory.read_cons, hne]
    · split
      · rename_i heq
        have hk : i ≠ k := heq ▸ hne
        split <;> simp [Memory.read_cons, hk]
      · simp only [Memory.read_cons, ih]

theorem Memory.wfFrom_write {lo : Nat} {m : Memory} (h : Memory.wfFrom lo m = true) {a : Nat} (b : Byte) (ha : lo ≤ a) :
    Memory.wfFrom lo (Memory.write m a b) = true := by
  induction m generalizing lo with
  | nil =>
    by_cases hb : b = 0#8
    · simp [Memory.write, unlistedByte, hb, Memory.wfFrom]
    · simp [Memory.write, unlistedByte, hb, ha, Memory.wfFrom]
  | cons c m ih =>
    obtain ⟨k, v⟩ := c
    have hc := h
    rw [Memory.wfFrom_cons] at hc
    simp only [Memory.write]
    split
    · split
      · exact h
      · rename_i hlt hb
        rw [Memory.wfFrom_cons, Memory.wfFrom_cons]
        exact ⟨ha, hb, by omega, hc.2⟩
    · split
      · split
        · exact Memory.wfFrom_mono hc.2.2 (by omega)
        · rename_i hb
          rw [Memory.wfFrom_cons]
          exact ⟨hc.1, hb, hc.2.2⟩
      · rw [Memory.wfFrom_cons]
        exact ⟨hc.1, hc.2.1, ih hc.2.2 (by omega)⟩

/-- Every write keeps the canonical form. -/
theorem Memory.wf_write {m : Memory} (h : Memory.wf m = true) (a : Nat) (b : Byte) :
    Memory.wf (Memory.write m a b) = true :=
  Memory.wfFrom_write h b (Nat.zero_le a)

@[simp] theorem Memory.wf_nil : Memory.wf [] = true := rfl

@[simp] theorem Memory.within_nil (n : Nat) : Memory.within n [] = true := rfl

/-- A write inside the buffer keeps every listed index inside it. -/
theorem Memory.within_write {n : Nat} {m : Memory} (h : Memory.within n m = true) {a : Nat} (b : Byte) (ha : a < n) :
    Memory.within n (Memory.write m a b) = true := by
  induction m with
  | nil => by_cases hb : b = 0#8 <;> simp [Memory.write, Memory.within, unlistedByte, hb, ha]
  | cons c m ih =>
    obtain ⟨k, v⟩ := c
    have hc : k < n ∧ Memory.within n m = true := by simpa [Memory.within] using h
    have hcons (c : Host.Cell) (l : Memory) (h1 : c.1 < n) (h2 : Memory.within n l = true) :
        Memory.within n (c :: l) = true := by simpa [Memory.within, h1] using h2
    simp only [Memory.write]
    split
    · split
      · exact h
      · exact hcons _ _ ha h
    · split
      · split
        · exact hc.2
        · exact hcons _ _ hc.1 hc.2
      · exact hcons _ _ hc.1 (ih hc.2)

/-- Equal contents are equal data: two buffers in canonical form that read alike are the same list. -/
theorem Memory.ext_of_wfFrom {lo : Nat} {m m' : Memory} (h : Memory.wfFrom lo m = true) (h' : Memory.wfFrom lo m' = true)
    (hr : ∀ i, Memory.read m i = Memory.read m' i) : m = m' := by
  induction m generalizing lo m' with
  | nil =>
    cases m' with
    | nil => rfl
    | cons c' m' =>
      obtain ⟨k', v'⟩ := c'
      rw [Memory.wfFrom_cons] at h'
      exact absurd (by simpa [Memory.read_cons] using (hr k').symm) h'.2.1
  | cons c m ih =>
    obtain ⟨k, v⟩ := c
    rw [Memory.wfFrom_cons] at h
    cases m' with
    | nil => exact absurd (by simpa [Memory.read_cons] using hr k) h.2.1
    | cons c' m' =>
      obtain ⟨k', v'⟩ := c'
      rw [Memory.wfFrom_cons] at h'
      have hk : k = k' := by
        rcases Nat.lt_trichotomy k k' with hlt | heq | hgt
        · have := hr k
          rw [Memory.read_cons, if_pos rfl, Memory.read_cons, if_neg (by omega), Memory.read_below h'.2.2 (by omega)] at this
          exact absurd this h.2.1
        · exact heq
        · have := (hr k').symm
          rw [Memory.read_cons, if_pos rfl, Memory.read_cons, if_neg (by omega), Memory.read_below h.2.2 (by omega)] at this
          exact absurd this h'.2.1
      subst hk
      have hv : v = v' := by simpa [Memory.read_cons] using hr k
      subst hv
      congr 1
      refine ih h.2.2 h'.2.2 fun i => ?_
      by_cases hi : i = k
      · subst hi
        rw [Memory.read_below h.2.2 (by omega), Memory.read_below h'.2.2 (by omega)]
      · have := hr i
        rwa [Memory.read_cons, if_neg hi, Memory.read_cons, if_neg hi] at this

/-! ## The byte string below a length -/

@[simp] theorem Memory.bytes_length (m : Memory) (n : Nat) : (Memory.bytes m n).length = n := by simp [Memory.bytes]

@[simp] theorem Memory.bytes_zero (m : Memory) : Memory.bytes m 0 = [] := rfl

theorem Memory.bytes_succ (m : Memory) (n : Nat) : Memory.bytes m (n + 1) = Memory.bytes m n ++ [Memory.read m n] := by
  simp [Memory.bytes, List.range_succ]

theorem Memory.bytes_getElem? (m : Memory) {n i : Nat} (h : i < n) : (Memory.bytes m n)[i]? = some (Memory.read m i) := by
  simp [Memory.bytes, h]

/-- The bytes below a length depend on nothing else. -/
theorem Memory.bytes_congr {m m' : Memory} {n : Nat} (h : ∀ i, i < n → Memory.read m' i = Memory.read m i) :
    Memory.bytes m' n = Memory.bytes m n := by
  simp only [Memory.bytes, List.map_inj_left, List.mem_range]
  exact h

/-- A write at or above the length is not seen below it. -/
theorem Memory.bytes_write_above (m : Memory) {n a : Nat} (b : Byte) (h : n ≤ a) :
    Memory.bytes (Memory.write m a b) n = Memory.bytes m n :=
  Memory.bytes_congr fun _ hi => Memory.read_write_other m b (by omega)

/-- Appending: a byte written at the length, and the length one more. -/
theorem Memory.bytes_write_end {m : Memory} (h : Memory.wf m = true) (n : Nat) (b : Byte) :
    Memory.bytes (Memory.write m n b) (n + 1) = Memory.bytes m n ++ [b] := by
  rw [Memory.bytes_succ, Memory.bytes_write_above m b (Nat.le_refl n), Memory.read_write_same h]

@[simp] theorem State.command_length (s : State) : s.command.length = s.cmdLen := Memory.bytes_length _ _

@[simp] theorem State.response_length (s : State) : s.response.length = s.rxLen := Memory.bytes_length _ _

end Sys2Proof.Machine
end

