-- ==== Sys2Proof/Laws/State.lean ====
section
/-! SUPPORT. One lemma per field per shared update of State, so that no later proof unfolds a record update. -/

namespace Sys2Proof.Machine

section Updates

variable (s : State)

@[simp] theorem raiseErr_crc (c : ErrClass) (d : Detail) (op : Byte) : (raiseErr c d op s).crc = s.crc := rfl
@[simp] theorem raiseErr_cmd (c : ErrClass) (d : Detail) (op : Byte) : (raiseErr c d op s).cmd = s.cmd := rfl
@[simp] theorem raiseErr_cmdLen (c : ErrClass) (d : Detail) (op : Byte) : (raiseErr c d op s).cmdLen = s.cmdLen := rfl
@[simp] theorem raiseErr_cmdOvf (c : ErrClass) (d : Detail) (op : Byte) : (raiseErr c d op s).cmdOvf = s.cmdOvf := rfl
@[simp] theorem raiseErr_cmdBad (c : ErrClass) (d : Detail) (op : Byte) : (raiseErr c d op s).cmdBad = s.cmdBad := rfl
@[simp] theorem raiseErr_txPhase (c : ErrClass) (d : Detail) (op : Byte) : (raiseErr c d op s).txPhase = s.txPhase := rfl
@[simp] theorem raiseErr_txIdx (c : ErrClass) (d : Detail) (op : Byte) : (raiseErr c d op s).txIdx = s.txIdx := rfl
@[simp] theorem raiseErr_txMarker (c : ErrClass) (d : Detail) (op : Byte) : (raiseErr c d op s).txMarker = s.txMarker := rfl
@[simp] theorem raiseErr_txOut (c : ErrClass) (d : Detail) (op : Byte) : (raiseErr c d op s).txOut = s.txOut := rfl
@[simp] theorem raiseErr_txStream (c : ErrClass) (d : Detail) (op : Byte) : (raiseErr c d op s).txStream = s.txStream := rfl
@[simp] theorem raiseErr_rx (c : ErrClass) (d : Detail) (op : Byte) : (raiseErr c d op s).rx = s.rx := rfl
@[simp] theorem raiseErr_rxLen (c : ErrClass) (d : Detail) (op : Byte) : (raiseErr c d op s).rxLen = s.rxLen := rfl
@[simp] theorem raiseErr_rxState (c : ErrClass) (d : Detail) (op : Byte) : (raiseErr c d op s).rxState = s.rxState := rfl
@[simp] theorem raiseErr_rxEnd (c : ErrClass) (d : Detail) (op : Byte) : (raiseErr c d op s).rxEnd = s.rxEnd := rfl
@[simp] theorem raiseErr_verdict (c : ErrClass) (d : Detail) (op : Byte) : (raiseErr c d op s).verdict = s.verdict := rfl
@[simp] theorem raiseErr_pay (c : ErrClass) (d : Detail) (op : Byte) : (raiseErr c d op s).pay = s.pay := rfl
@[simp] theorem raiseErr_ack (c : ErrClass) (d : Detail) (op : Byte) : (raiseErr c d op s).ack = s.ack := rfl
@[simp] theorem raiseErr_err (c : ErrClass) (d : Detail) (op : Byte) : (raiseErr c d op s).err = c := rfl
@[simp] theorem raiseErr_errInfo (c : ErrClass) (d : Detail) (op : Byte) : (raiseErr c d op s).errInfo = d := rfl
@[simp] theorem raiseErr_diag (c : ErrClass) (d : Detail) (op : Byte) : (raiseErr c d op s).diag = s.diag ++ logEntry c.diagCode d op := rfl
@[simp] theorem raiseErr_record (c : ErrClass) (d : Detail) (op : Byte) : (raiseErr c d op s).record = s.record := rfl
@[simp] theorem raiseErr_inbox (c : ErrClass) (d : Detail) (op : Byte) : (raiseErr c d op s).inbox = s.inbox := rfl

@[simp] theorem succeed_crc : (succeed s).crc = s.crc := rfl
@[simp] theorem succeed_cmd : (succeed s).cmd = s.cmd := rfl
@[simp] theorem succeed_cmdLen : (succeed s).cmdLen = s.cmdLen := rfl
@[simp] theorem succeed_cmdOvf : (succeed s).cmdOvf = s.cmdOvf := rfl
@[simp] theorem succeed_cmdBad : (succeed s).cmdBad = s.cmdBad := rfl
@[simp] theorem succeed_txPhase : (succeed s).txPhase = s.txPhase := rfl
@[simp] theorem succeed_txIdx : (succeed s).txIdx = s.txIdx := rfl
@[simp] theorem succeed_txMarker : (succeed s).txMarker = s.txMarker := rfl
@[simp] theorem succeed_txOut : (succeed s).txOut = s.txOut := rfl
@[simp] theorem succeed_txStream : (succeed s).txStream = s.txStream := rfl
@[simp] theorem succeed_rx : (succeed s).rx = s.rx := rfl
@[simp] theorem succeed_rxLen : (succeed s).rxLen = s.rxLen := rfl
@[simp] theorem succeed_rxState : (succeed s).rxState = s.rxState := rfl
@[simp] theorem succeed_rxEnd : (succeed s).rxEnd = s.rxEnd := rfl
@[simp] theorem succeed_verdict : (succeed s).verdict = s.verdict := rfl
@[simp] theorem succeed_pay : (succeed s).pay = s.pay := rfl
@[simp] theorem succeed_ack : (succeed s).ack = s.ack := rfl
@[simp] theorem succeed_err : (succeed s).err = ErrClass.none := rfl
@[simp] theorem succeed_errInfo : (succeed s).errInfo = Detail.none := rfl
@[simp] theorem succeed_diag : (succeed s).diag = s.diag := rfl
@[simp] theorem succeed_record : (succeed s).record = s.record := rfl
@[simp] theorem succeed_inbox : (succeed s).inbox = s.inbox := rfl

@[simp] theorem warnDiag_crc (d : Detail) (op : Byte) : (warnDiag d op s).crc = s.crc := rfl
@[simp] theorem warnDiag_cmd (d : Detail) (op : Byte) : (warnDiag d op s).cmd = s.cmd := rfl
@[simp] theorem warnDiag_cmdLen (d : Detail) (op : Byte) : (warnDiag d op s).cmdLen = s.cmdLen := rfl
@[simp] theorem warnDiag_cmdOvf (d : Detail) (op : Byte) : (warnDiag d op s).cmdOvf = s.cmdOvf := rfl
@[simp] theorem warnDiag_cmdBad (d : Detail) (op : Byte) : (warnDiag d op s).cmdBad = s.cmdBad := rfl
@[simp] theorem warnDiag_txPhase (d : Detail) (op : Byte) : (warnDiag d op s).txPhase = s.txPhase := rfl
@[simp] theorem warnDiag_txIdx (d : Detail) (op : Byte) : (warnDiag d op s).txIdx = s.txIdx := rfl
@[simp] theorem warnDiag_txMarker (d : Detail) (op : Byte) : (warnDiag d op s).txMarker = s.txMarker := rfl
@[simp] theorem warnDiag_txOut (d : Detail) (op : Byte) : (warnDiag d op s).txOut = s.txOut := rfl
@[simp] theorem warnDiag_txStream (d : Detail) (op : Byte) : (warnDiag d op s).txStream = s.txStream := rfl
@[simp] theorem warnDiag_rx (d : Detail) (op : Byte) : (warnDiag d op s).rx = s.rx := rfl
@[simp] theorem warnDiag_rxLen (d : Detail) (op : Byte) : (warnDiag d op s).rxLen = s.rxLen := rfl
@[simp] theorem warnDiag_rxState (d : Detail) (op : Byte) : (warnDiag d op s).rxState = s.rxState := rfl
@[simp] theorem warnDiag_rxEnd (d : Detail) (op : Byte) : (warnDiag d op s).rxEnd = s.rxEnd := rfl
@[simp] theorem warnDiag_verdict (d : Detail) (op : Byte) : (warnDiag d op s).verdict = s.verdict := rfl
@[simp] theorem warnDiag_pay (d : Detail) (op : Byte) : (warnDiag d op s).pay = s.pay := rfl
@[simp] theorem warnDiag_ack (d : Detail) (op : Byte) : (warnDiag d op s).ack = s.ack := rfl
@[simp] theorem warnDiag_err (d : Detail) (op : Byte) : (warnDiag d op s).err = s.err := rfl
@[simp] theorem warnDiag_errInfo (d : Detail) (op : Byte) : (warnDiag d op s).errInfo = s.errInfo := rfl
@[simp] theorem warnDiag_diag (d : Detail) (op : Byte) : (warnDiag d op s).diag = s.diag ++ logEntry d.diagCode d op := rfl
@[simp] theorem warnDiag_record (d : Detail) (op : Byte) : (warnDiag d op s).record = s.record := rfl
@[simp] theorem warnDiag_inbox (d : Detail) (op : Byte) : (warnDiag d op s).inbox = s.inbox := rfl

@[simp] theorem callerError_crc (d : Detail) (op : Byte) : (callerError d op s).crc = s.crc := rfl
@[simp] theorem callerError_cmd (d : Detail) (op : Byte) : (callerError d op s).cmd = s.cmd := rfl
@[simp] theorem callerError_cmdLen (d : Detail) (op : Byte) : (callerError d op s).cmdLen = s.cmdLen := rfl
@[simp] theorem callerError_cmdOvf (d : Detail) (op : Byte) : (callerError d op s).cmdOvf = s.cmdOvf := rfl
@[simp] theorem callerError_cmdBad (d : Detail) (op : Byte) : (callerError d op s).cmdBad = s.cmdBad := rfl
@[simp] theorem callerError_txPhase (d : Detail) (op : Byte) : (callerError d op s).txPhase = s.txPhase := rfl
@[simp] theorem callerError_txIdx (d : Detail) (op : Byte) : (callerError d op s).txIdx = s.txIdx := rfl
@[simp] theorem callerError_txMarker (d : Detail) (op : Byte) : (callerError d op s).txMarker = s.txMarker := rfl
@[simp] theorem callerError_txOut (d : Detail) (op : Byte) : (callerError d op s).txOut = s.txOut := rfl
@[simp] theorem callerError_txStream (d : Detail) (op : Byte) : (callerError d op s).txStream = s.txStream := rfl
@[simp] theorem callerError_rx (d : Detail) (op : Byte) : (callerError d op s).rx = s.rx := rfl
@[simp] theorem callerError_rxLen (d : Detail) (op : Byte) : (callerError d op s).rxLen = s.rxLen := rfl
@[simp] theorem callerError_rxState (d : Detail) (op : Byte) : (callerError d op s).rxState = s.rxState := rfl
@[simp] theorem callerError_rxEnd (d : Detail) (op : Byte) : (callerError d op s).rxEnd = s.rxEnd := rfl
@[simp] theorem callerError_verdict (d : Detail) (op : Byte) : (callerError d op s).verdict = s.verdict := rfl
@[simp] theorem callerError_pay (d : Detail) (op : Byte) : (callerError d op s).pay = s.pay := rfl
@[simp] theorem callerError_ack (d : Detail) (op : Byte) : (callerError d op s).ack = s.ack := rfl
@[simp] theorem callerError_err (d : Detail) (op : Byte) : (callerError d op s).err = ErrClass.caller := rfl
@[simp] theorem callerError_errInfo (d : Detail) (op : Byte) : (callerError d op s).errInfo = d := rfl
@[simp] theorem callerError_diag (d : Detail) (op : Byte) : (callerError d op s).diag = s.diag := List.append_nil _
@[simp] theorem callerError_record (d : Detail) (op : Byte) : (callerError d op s).record = s.record := rfl
@[simp] theorem callerError_inbox (d : Detail) (op : Byte) : (callerError d op s).inbox = s.inbox := rfl

@[simp] theorem emit_crc (b : Byte) : (emit b s).crc = s.crc := rfl
@[simp] theorem emit_cmd (b : Byte) : (emit b s).cmd = s.cmd := rfl
@[simp] theorem emit_cmdLen (b : Byte) : (emit b s).cmdLen = s.cmdLen := rfl
@[simp] theorem emit_cmdOvf (b : Byte) : (emit b s).cmdOvf = s.cmdOvf := rfl
@[simp] theorem emit_cmdBad (b : Byte) : (emit b s).cmdBad = s.cmdBad := rfl
@[simp] theorem emit_txPhase (b : Byte) : (emit b s).txPhase = s.txPhase := rfl
@[simp] theorem emit_txIdx (b : Byte) : (emit b s).txIdx = s.txIdx := rfl
@[simp] theorem emit_txMarker (b : Byte) : (emit b s).txMarker = s.txMarker := rfl
@[simp] theorem emit_txOut (b : Byte) : (emit b s).txOut = b := rfl
@[simp] theorem emit_txStream (b : Byte) : (emit b s).txStream = s.txStream ++ [b] := rfl
@[simp] theorem emit_rx (b : Byte) : (emit b s).rx = s.rx := rfl
@[simp] theorem emit_rxLen (b : Byte) : (emit b s).rxLen = s.rxLen := rfl
@[simp] theorem emit_rxState (b : Byte) : (emit b s).rxState = s.rxState := rfl
@[simp] theorem emit_rxEnd (b : Byte) : (emit b s).rxEnd = s.rxEnd := rfl
@[simp] theorem emit_verdict (b : Byte) : (emit b s).verdict = s.verdict := rfl
@[simp] theorem emit_pay (b : Byte) : (emit b s).pay = s.pay := rfl
@[simp] theorem emit_ack (b : Byte) : (emit b s).ack = s.ack := rfl
@[simp] theorem emit_err (b : Byte) : (emit b s).err = s.err := rfl
@[simp] theorem emit_errInfo (b : Byte) : (emit b s).errInfo = s.errInfo := rfl
@[simp] theorem emit_diag (b : Byte) : (emit b s).diag = s.diag := rfl
@[simp] theorem emit_record (b : Byte) : (emit b s).record = s.record := rfl
@[simp] theorem emit_inbox (b : Byte) : (emit b s).inbox = s.inbox := rfl

@[simp] theorem emitCovered_crc (b : Byte) (p : TxPhase) : (emitCovered b p s).crc = crcByte s.crc b := rfl
@[simp] theorem emitCovered_cmd (b : Byte) (p : TxPhase) : (emitCovered b p s).cmd = s.cmd := rfl
@[simp] theorem emitCovered_cmdLen (b : Byte) (p : TxPhase) : (emitCovered b p s).cmdLen = s.cmdLen := rfl
@[simp] theorem emitCovered_cmdOvf (b : Byte) (p : TxPhase) : (emitCovered b p s).cmdOvf = s.cmdOvf := rfl
@[simp] theorem emitCovered_cmdBad (b : Byte) (p : TxPhase) : (emitCovered b p s).cmdBad = s.cmdBad := rfl
@[simp] theorem emitCovered_txPhase (b : Byte) (p : TxPhase) : (emitCovered b p s).txPhase = p := rfl
@[simp] theorem emitCovered_txIdx (b : Byte) (p : TxPhase) : (emitCovered b p s).txIdx = s.txIdx := rfl
@[simp] theorem emitCovered_txMarker (b : Byte) (p : TxPhase) : (emitCovered b p s).txMarker = s.txMarker := rfl
@[simp] theorem emitCovered_txOut (b : Byte) (p : TxPhase) : (emitCovered b p s).txOut = b := rfl
@[simp] theorem emitCovered_txStream (b : Byte) (p : TxPhase) : (emitCovered b p s).txStream = s.txStream ++ [b] := rfl
@[simp] theorem emitCovered_rx (b : Byte) (p : TxPhase) : (emitCovered b p s).rx = s.rx := rfl
@[simp] theorem emitCovered_rxLen (b : Byte) (p : TxPhase) : (emitCovered b p s).rxLen = s.rxLen := rfl
@[simp] theorem emitCovered_rxState (b : Byte) (p : TxPhase) : (emitCovered b p s).rxState = s.rxState := rfl
@[simp] theorem emitCovered_rxEnd (b : Byte) (p : TxPhase) : (emitCovered b p s).rxEnd = s.rxEnd := rfl
@[simp] theorem emitCovered_verdict (b : Byte) (p : TxPhase) : (emitCovered b p s).verdict = s.verdict := rfl
@[simp] theorem emitCovered_pay (b : Byte) (p : TxPhase) : (emitCovered b p s).pay = s.pay := rfl
@[simp] theorem emitCovered_ack (b : Byte) (p : TxPhase) : (emitCovered b p s).ack = s.ack := rfl
@[simp] theorem emitCovered_err (b : Byte) (p : TxPhase) : (emitCovered b p s).err = ErrClass.none := rfl
@[simp] theorem emitCovered_errInfo (b : Byte) (p : TxPhase) : (emitCovered b p s).errInfo = Detail.none := rfl
@[simp] theorem emitCovered_diag (b : Byte) (p : TxPhase) : (emitCovered b p s).diag = s.diag := rfl
@[simp] theorem emitCovered_record (b : Byte) (p : TxPhase) : (emitCovered b p s).record = s.record := rfl
@[simp] theorem emitCovered_inbox (b : Byte) (p : TxPhase) : (emitCovered b p s).inbox = s.inbox := rfl

@[simp] theorem emitTrailer_crc (b : Byte) (p : TxPhase) : (emitTrailer b p s).crc = s.crc := rfl
@[simp] theorem emitTrailer_cmd (b : Byte) (p : TxPhase) : (emitTrailer b p s).cmd = s.cmd := rfl
@[simp] theorem emitTrailer_cmdLen (b : Byte) (p : TxPhase) : (emitTrailer b p s).cmdLen = s.cmdLen := rfl
@[simp] theorem emitTrailer_cmdOvf (b : Byte) (p : TxPhase) : (emitTrailer b p s).cmdOvf = s.cmdOvf := rfl
@[simp] theorem emitTrailer_cmdBad (b : Byte) (p : TxPhase) : (emitTrailer b p s).cmdBad = s.cmdBad := rfl
@[simp] theorem emitTrailer_txPhase (b : Byte) (p : TxPhase) : (emitTrailer b p s).txPhase = p := rfl
@[simp] theorem emitTrailer_txIdx (b : Byte) (p : TxPhase) : (emitTrailer b p s).txIdx = s.txIdx := rfl
@[simp] theorem emitTrailer_txMarker (b : Byte) (p : TxPhase) : (emitTrailer b p s).txMarker = s.txMarker := rfl
@[simp] theorem emitTrailer_txOut (b : Byte) (p : TxPhase) : (emitTrailer b p s).txOut = b := rfl
@[simp] theorem emitTrailer_txStream (b : Byte) (p : TxPhase) : (emitTrailer b p s).txStream = s.txStream ++ [b] := rfl
@[simp] theorem emitTrailer_rx (b : Byte) (p : TxPhase) : (emitTrailer b p s).rx = s.rx := rfl
@[simp] theorem emitTrailer_rxLen (b : Byte) (p : TxPhase) : (emitTrailer b p s).rxLen = s.rxLen := rfl
@[simp] theorem emitTrailer_rxState (b : Byte) (p : TxPhase) : (emitTrailer b p s).rxState = s.rxState := rfl
@[simp] theorem emitTrailer_rxEnd (b : Byte) (p : TxPhase) : (emitTrailer b p s).rxEnd = s.rxEnd := rfl
@[simp] theorem emitTrailer_verdict (b : Byte) (p : TxPhase) : (emitTrailer b p s).verdict = s.verdict := rfl
@[simp] theorem emitTrailer_pay (b : Byte) (p : TxPhase) : (emitTrailer b p s).pay = s.pay := rfl
@[simp] theorem emitTrailer_ack (b : Byte) (p : TxPhase) : (emitTrailer b p s).ack = s.ack := rfl
@[simp] theorem emitTrailer_err (b : Byte) (p : TxPhase) : (emitTrailer b p s).err = ErrClass.none := rfl
@[simp] theorem emitTrailer_errInfo (b : Byte) (p : TxPhase) : (emitTrailer b p s).errInfo = Detail.none := rfl
@[simp] theorem emitTrailer_diag (b : Byte) (p : TxPhase) : (emitTrailer b p s).diag = s.diag := rfl
@[simp] theorem emitTrailer_record (b : Byte) (p : TxPhase) : (emitTrailer b p s).record = s.record := rfl
@[simp] theorem emitTrailer_inbox (b : Byte) (p : TxPhase) : (emitTrailer b p s).inbox = s.inbox := rfl

@[simp] theorem setRecord_crc (g : RecTag) (n p : Bool) (f : Fields) : (setRecord g n p f s).crc = s.crc := rfl
@[simp] theorem setRecord_cmd (g : RecTag) (n p : Bool) (f : Fields) : (setRecord g n p f s).cmd = s.cmd := rfl
@[simp] theorem setRecord_cmdLen (g : RecTag) (n p : Bool) (f : Fields) : (setRecord g n p f s).cmdLen = s.cmdLen := rfl
@[simp] theorem setRecord_cmdOvf (g : RecTag) (n p : Bool) (f : Fields) : (setRecord g n p f s).cmdOvf = s.cmdOvf := rfl
@[simp] theorem setRecord_cmdBad (g : RecTag) (n p : Bool) (f : Fields) : (setRecord g n p f s).cmdBad = s.cmdBad := rfl
@[simp] theorem setRecord_txPhase (g : RecTag) (n p : Bool) (f : Fields) : (setRecord g n p f s).txPhase = s.txPhase := rfl
@[simp] theorem setRecord_txIdx (g : RecTag) (n p : Bool) (f : Fields) : (setRecord g n p f s).txIdx = s.txIdx := rfl
@[simp] theorem setRecord_txMarker (g : RecTag) (n p : Bool) (f : Fields) : (setRecord g n p f s).txMarker = s.txMarker := rfl
@[simp] theorem setRecord_txOut (g : RecTag) (n p : Bool) (f : Fields) : (setRecord g n p f s).txOut = s.txOut := rfl
@[simp] theorem setRecord_txStream (g : RecTag) (n p : Bool) (f : Fields) : (setRecord g n p f s).txStream = s.txStream := rfl
@[simp] theorem setRecord_rx (g : RecTag) (n p : Bool) (f : Fields) : (setRecord g n p f s).rx = s.rx := rfl
@[simp] theorem setRecord_rxLen (g : RecTag) (n p : Bool) (f : Fields) : (setRecord g n p f s).rxLen = s.rxLen := rfl
@[simp] theorem setRecord_rxState (g : RecTag) (n p : Bool) (f : Fields) : (setRecord g n p f s).rxState = s.rxState := rfl
@[simp] theorem setRecord_rxEnd (g : RecTag) (n p : Bool) (f : Fields) : (setRecord g n p f s).rxEnd = s.rxEnd := rfl
@[simp] theorem setRecord_verdict (g : RecTag) (n p : Bool) (f : Fields) : (setRecord g n p f s).verdict = s.verdict := rfl
@[simp] theorem setRecord_pay (g : RecTag) (n p : Bool) (f : Fields) : (setRecord g n p f s).pay = s.pay := rfl
@[simp] theorem setRecord_ack (g : RecTag) (n p : Bool) (f : Fields) : (setRecord g n p f s).ack = s.ack := rfl
@[simp] theorem setRecord_err (g : RecTag) (n p : Bool) (f : Fields) : (setRecord g n p f s).err = s.err := rfl
@[simp] theorem setRecord_errInfo (g : RecTag) (n p : Bool) (f : Fields) : (setRecord g n p f s).errInfo = s.errInfo := rfl
@[simp] theorem setRecord_diag (g : RecTag) (n p : Bool) (f : Fields) : (setRecord g n p f s).diag = s.diag := rfl
@[simp] theorem setRecord_record (g : RecTag) (n p : Bool) (f : Fields) : (setRecord g n p f s).record = { tag := g, isNull := n, isPartial := p, fields := f } := rfl
@[simp] theorem setRecord_inbox (g : RecTag) (n p : Bool) (f : Fields) : (setRecord g n p f s).inbox = s.inbox := rfl

@[simp] theorem fullRecord_crc (g : RecTag) (f : Fields) : (fullRecord g f s).crc = s.crc := rfl
@[simp] theorem fullRecord_cmd (g : RecTag) (f : Fields) : (fullRecord g f s).cmd = s.cmd := rfl
@[simp] theorem fullRecord_cmdLen (g : RecTag) (f : Fields) : (fullRecord g f s).cmdLen = s.cmdLen := rfl
@[simp] theorem fullRecord_cmdOvf (g : RecTag) (f : Fields) : (fullRecord g f s).cmdOvf = s.cmdOvf := rfl
@[simp] theorem fullRecord_cmdBad (g : RecTag) (f : Fields) : (fullRecord g f s).cmdBad = s.cmdBad := rfl
@[simp] theorem fullRecord_txPhase (g : RecTag) (f : Fields) : (fullRecord g f s).txPhase = s.txPhase := rfl
@[simp] theorem fullRecord_txIdx (g : RecTag) (f : Fields) : (fullRecord g f s).txIdx = s.txIdx := rfl
@[simp] theorem fullRecord_txMarker (g : RecTag) (f : Fields) : (fullRecord g f s).txMarker = s.txMarker := rfl
@[simp] theorem fullRecord_txOut (g : RecTag) (f : Fields) : (fullRecord g f s).txOut = s.txOut := rfl
@[simp] theorem fullRecord_txStream (g : RecTag) (f : Fields) : (fullRecord g f s).txStream = s.txStream := rfl
@[simp] theorem fullRecord_rx (g : RecTag) (f : Fields) : (fullRecord g f s).rx = s.rx := rfl
@[simp] theorem fullRecord_rxLen (g : RecTag) (f : Fields) : (fullRecord g f s).rxLen = s.rxLen := rfl
@[simp] theorem fullRecord_rxState (g : RecTag) (f : Fields) : (fullRecord g f s).rxState = s.rxState := rfl
@[simp] theorem fullRecord_rxEnd (g : RecTag) (f : Fields) : (fullRecord g f s).rxEnd = s.rxEnd := rfl
@[simp] theorem fullRecord_verdict (g : RecTag) (f : Fields) : (fullRecord g f s).verdict = s.verdict := rfl
@[simp] theorem fullRecord_pay (g : RecTag) (f : Fields) : (fullRecord g f s).pay = s.pay := rfl
@[simp] theorem fullRecord_ack (g : RecTag) (f : Fields) : (fullRecord g f s).ack = s.ack := rfl
@[simp] theorem fullRecord_err (g : RecTag) (f : Fields) : (fullRecord g f s).err = ErrClass.none := rfl
@[simp] theorem fullRecord_errInfo (g : RecTag) (f : Fields) : (fullRecord g f s).errInfo = Detail.none := rfl
@[simp] theorem fullRecord_diag (g : RecTag) (f : Fields) : (fullRecord g f s).diag = s.diag := rfl
@[simp] theorem fullRecord_record (g : RecTag) (f : Fields) : (fullRecord g f s).record = { tag := g, isNull := false, isPartial := false, fields := f } := rfl
@[simp] theorem fullRecord_inbox (g : RecTag) (f : Fields) : (fullRecord g f s).inbox = s.inbox := rfl

@[simp] theorem shortRecord_crc (g : RecTag) (f : Fields) (d : Detail) (op : Byte) : (shortRecord g f d op s).crc = s.crc := rfl
@[simp] theorem shortRecord_cmd (g : RecTag) (f : Fields) (d : Detail) (op : Byte) : (shortRecord g f d op s).cmd = s.cmd := rfl
@[simp] theorem shortRecord_cmdLen (g : RecTag) (f : Fields) (d : Detail) (op : Byte) : (shortRecord g f d op s).cmdLen = s.cmdLen := rfl
@[simp] theorem shortRecord_cmdOvf (g : RecTag) (f : Fields) (d : Detail) (op : Byte) : (shortRecord g f d op s).cmdOvf = s.cmdOvf := rfl
@[simp] theorem shortRecord_cmdBad (g : RecTag) (f : Fields) (d : Detail) (op : Byte) : (shortRecord g f d op s).cmdBad = s.cmdBad := rfl
@[simp] theorem shortRecord_txPhase (g : RecTag) (f : Fields) (d : Detail) (op : Byte) : (shortRecord g f d op s).txPhase = s.txPhase := rfl
@[simp] theorem shortRecord_txIdx (g : RecTag) (f : Fields) (d : Detail) (op : Byte) : (shortRecord g f d op s).txIdx = s.txIdx := rfl
@[simp] theorem shortRecord_txMarker (g : RecTag) (f : Fields) (d : Detail) (op : Byte) : (shortRecord g f d op s).txMarker = s.txMarker := rfl
@[simp] theorem shortRecord_txOut (g : RecTag) (f : Fields) (d : Detail) (op : Byte) : (shortRecord g f d op s).txOut = s.txOut := rfl
@[simp] theorem shortRecord_txStream (g : RecTag) (f : Fields) (d : Detail) (op : Byte) : (shortRecord g f d op s).txStream = s.txStream := rfl
@[simp] theorem shortRecord_rx (g : RecTag) (f : Fields) (d : Detail) (op : Byte) : (shortRecord g f d op s).rx = s.rx := rfl
@[simp] theorem shortRecord_rxLen (g : RecTag) (f : Fields) (d : Detail) (op : Byte) : (shortRecord g f d op s).rxLen = s.rxLen := rfl
@[simp] theorem shortRecord_rxState (g : RecTag) (f : Fields) (d : Detail) (op : Byte) : (shortRecord g f d op s).rxState = s.rxState := rfl
@[simp] theorem shortRecord_rxEnd (g : RecTag) (f : Fields) (d : Detail) (op : Byte) : (shortRecord g f d op s).rxEnd = s.rxEnd := rfl
@[simp] theorem shortRecord_verdict (g : RecTag) (f : Fields) (d : Detail) (op : Byte) : (shortRecord g f d op s).verdict = s.verdict := rfl
@[simp] theorem shortRecord_pay (g : RecTag) (f : Fields) (d : Detail) (op : Byte) : (shortRecord g f d op s).pay = s.pay := rfl
@[simp] theorem shortRecord_ack (g : RecTag) (f : Fields) (d : Detail) (op : Byte) : (shortRecord g f d op s).ack = s.ack := rfl
@[simp] theorem shortRecord_err (g : RecTag) (f : Fields) (d : Detail) (op : Byte) : (shortRecord g f d op s).err = ErrClass.parse := rfl
@[simp] theorem shortRecord_errInfo (g : RecTag) (f : Fields) (d : Detail) (op : Byte) : (shortRecord g f d op s).errInfo = d := rfl
@[simp] theorem shortRecord_diag (g : RecTag) (f : Fields) (d : Detail) (op : Byte) : (shortRecord g f d op s).diag = s.diag ++ logEntry (some .eParse) d op := rfl
@[simp] theorem shortRecord_record (g : RecTag) (f : Fields) (d : Detail) (op : Byte) : (shortRecord g f d op s).record = { tag := g, isNull := false, isPartial := true, fields := f } := rfl
@[simp] theorem shortRecord_inbox (g : RecTag) (f : Fields) (d : Detail) (op : Byte) : (shortRecord g f d op s).inbox = s.inbox := rfl

@[simp] theorem fallbackRecord_crc (g : RecTag) (f : Fields) (d : Detail) (op : Byte) : (fallbackRecord g f d op s).crc = s.crc := rfl
@[simp] theorem fallbackRecord_cmd (g : RecTag) (f : Fields) (d : Detail) (op : Byte) : (fallbackRecord g f d op s).cmd = s.cmd := rfl
@[simp] theorem fallbackRecord_cmdLen (g : RecTag) (f : Fields) (d : Detail) (op : Byte) : (fallbackRecord g f d op s).cmdLen = s.cmdLen := rfl
@[simp] theorem fallbackRecord_cmdOvf (g : RecTag) (f : Fields) (d : Detail) (op : Byte) : (fallbackRecord g f d op s).cmdOvf = s.cmdOvf := rfl
@[simp] theorem fallbackRecord_cmdBad (g : RecTag) (f : Fields) (d : Detail) (op : Byte) : (fallbackRecord g f d op s).cmdBad = s.cmdBad := rfl
@[simp] theorem fallbackRecord_txPhase (g : RecTag) (f : Fields) (d : Detail) (op : Byte) : (fallbackRecord g f d op s).txPhase = s.txPhase := rfl
@[simp] theorem fallbackRecord_txIdx (g : RecTag) (f : Fields) (d : Detail) (op : Byte) : (fallbackRecord g f d op s).txIdx = s.txIdx := rfl
@[simp] theorem fallbackRecord_txMarker (g : RecTag) (f : Fields) (d : Detail) (op : Byte) : (fallbackRecord g f d op s).txMarker = s.txMarker := rfl
@[simp] theorem fallbackRecord_txOut (g : RecTag) (f : Fields) (d : Detail) (op : Byte) : (fallbackRecord g f d op s).txOut = s.txOut := rfl
@[simp] theorem fallbackRecord_txStream (g : RecTag) (f : Fields) (d : Detail) (op : Byte) : (fallbackRecord g f d op s).txStream = s.txStream := rfl
@[simp] theorem fallbackRecord_rx (g : RecTag) (f : Fields) (d : Detail) (op : Byte) : (fallbackRecord g f d op s).rx = s.rx := rfl
@[simp] theorem fallbackRecord_rxLen (g : RecTag) (f : Fields) (d : Detail) (op : Byte) : (fallbackRecord g f d op s).rxLen = s.rxLen := rfl
@[simp] theorem fallbackRecord_rxState (g : RecTag) (f : Fields) (d : Detail) (op : Byte) : (fallbackRecord g f d op s).rxState = s.rxState := rfl
@[simp] theorem fallbackRecord_rxEnd (g : RecTag) (f : Fields) (d : Detail) (op : Byte) : (fallbackRecord g f d op s).rxEnd = s.rxEnd := rfl
@[simp] theorem fallbackRecord_verdict (g : RecTag) (f : Fields) (d : Detail) (op : Byte) : (fallbackRecord g f d op s).verdict = s.verdict := rfl
@[simp] theorem fallbackRecord_pay (g : RecTag) (f : Fields) (d : Detail) (op : Byte) : (fallbackRecord g f d op s).pay = s.pay := rfl
@[simp] theorem fallbackRecord_ack (g : RecTag) (f : Fields) (d : Detail) (op : Byte) : (fallbackRecord g f d op s).ack = s.ack := rfl
@[simp] theorem fallbackRecord_err (g : RecTag) (f : Fields) (d : Detail) (op : Byte) : (fallbackRecord g f d op s).err = ErrClass.none := rfl
@[simp] theorem fallbackRecord_errInfo (g : RecTag) (f : Fields) (d : Detail) (op : Byte) : (fallbackRecord g f d op s).errInfo = Detail.none := rfl
@[simp] theorem fallbackRecord_diag (g : RecTag) (f : Fields) (d : Detail) (op : Byte) : (fallbackRecord g f d op s).diag = s.diag ++ logEntry d.diagCode d op := rfl
@[simp] theorem fallbackRecord_record (g : RecTag) (f : Fields) (d : Detail) (op : Byte) : (fallbackRecord g f d op s).record = { tag := g, isNull := false, isPartial := true, fields := f } := rfl
@[simp] theorem fallbackRecord_inbox (g : RecTag) (f : Fields) (d : Detail) (op : Byte) : (fallbackRecord g f d op s).inbox = s.inbox := rfl

@[simp] theorem noRecord_crc (g : RecTag) (d : Detail) (op : Byte) : (noRecord g d op s).crc = s.crc := rfl
@[simp] theorem noRecord_cmd (g : RecTag) (d : Detail) (op : Byte) : (noRecord g d op s).cmd = s.cmd := rfl
@[simp] theorem noRecord_cmdLen (g : RecTag) (d : Detail) (op : Byte) : (noRecord g d op s).cmdLen = s.cmdLen := rfl
@[simp] theorem noRecord_cmdOvf (g : RecTag) (d : Detail) (op : Byte) : (noRecord g d op s).cmdOvf = s.cmdOvf := rfl
@[simp] theorem noRecord_cmdBad (g : RecTag) (d : Detail) (op : Byte) : (noRecord g d op s).cmdBad = s.cmdBad := rfl
@[simp] theorem noRecord_txPhase (g : RecTag) (d : Detail) (op : Byte) : (noRecord g d op s).txPhase = s.txPhase := rfl
@[simp] theorem noRecord_txIdx (g : RecTag) (d : Detail) (op : Byte) : (noRecord g d op s).txIdx = s.txIdx := rfl
@[simp] theorem noRecord_txMarker (g : RecTag) (d : Detail) (op : Byte) : (noRecord g d op s).txMarker = s.txMarker := rfl
@[simp] theorem noRecord_txOut (g : RecTag) (d : Detail) (op : Byte) : (noRecord g d op s).txOut = s.txOut := rfl
@[simp] theorem noRecord_txStream (g : RecTag) (d : Detail) (op : Byte) : (noRecord g d op s).txStream = s.txStream := rfl
@[simp] theorem noRecord_rx (g : RecTag) (d : Detail) (op : Byte) : (noRecord g d op s).rx = s.rx := rfl
@[simp] theorem noRecord_rxLen (g : RecTag) (d : Detail) (op : Byte) : (noRecord g d op s).rxLen = s.rxLen := rfl
@[simp] theorem noRecord_rxState (g : RecTag) (d : Detail) (op : Byte) : (noRecord g d op s).rxState = s.rxState := rfl
@[simp] theorem noRecord_rxEnd (g : RecTag) (d : Detail) (op : Byte) : (noRecord g d op s).rxEnd = s.rxEnd := rfl
@[simp] theorem noRecord_verdict (g : RecTag) (d : Detail) (op : Byte) : (noRecord g d op s).verdict = s.verdict := rfl
@[simp] theorem noRecord_pay (g : RecTag) (d : Detail) (op : Byte) : (noRecord g d op s).pay = s.pay := rfl
@[simp] theorem noRecord_ack (g : RecTag) (d : Detail) (op : Byte) : (noRecord g d op s).ack = s.ack := rfl
@[simp] theorem noRecord_err (g : RecTag) (d : Detail) (op : Byte) : (noRecord g d op s).err = ErrClass.parse := rfl
@[simp] theorem noRecord_errInfo (g : RecTag) (d : Detail) (op : Byte) : (noRecord g d op s).errInfo = d := rfl
@[simp] theorem noRecord_diag (g : RecTag) (d : Detail) (op : Byte) : (noRecord g d op s).diag = s.diag ++ logEntry (some .eParse) d op := rfl
@[simp] theorem noRecord_record (g : RecTag) (d : Detail) (op : Byte) : (noRecord g d op s).record = { tag := g, isNull := true, isPartial := false, fields := .none } := rfl
@[simp] theorem noRecord_inbox (g : RecTag) (d : Detail) (op : Byte) : (noRecord g d op s).inbox = s.inbox := rfl

@[simp] theorem warnIf_crc (b : Bool) (d : Detail) (op : Byte) : (warnIf b d op s).crc = s.crc := by cases b <;> rfl
@[simp] theorem warnIf_cmd (b : Bool) (d : Detail) (op : Byte) : (warnIf b d op s).cmd = s.cmd := by cases b <;> rfl
@[simp] theorem warnIf_cmdLen (b : Bool) (d : Detail) (op : Byte) : (warnIf b d op s).cmdLen = s.cmdLen := by cases b <;> rfl
@[simp] theorem warnIf_cmdOvf (b : Bool) (d : Detail) (op : Byte) : (warnIf b d op s).cmdOvf = s.cmdOvf := by cases b <;> rfl
@[simp] theorem warnIf_cmdBad (b : Bool) (d : Detail) (op : Byte) : (warnIf b d op s).cmdBad = s.cmdBad := by cases b <;> rfl
@[simp] theorem warnIf_txPhase (b : Bool) (d : Detail) (op : Byte) : (warnIf b d op s).txPhase = s.txPhase := by cases b <;> rfl
@[simp] theorem warnIf_txIdx (b : Bool) (d : Detail) (op : Byte) : (warnIf b d op s).txIdx = s.txIdx := by cases b <;> rfl
@[simp] theorem warnIf_txMarker (b : Bool) (d : Detail) (op : Byte) : (warnIf b d op s).txMarker = s.txMarker := by cases b <;> rfl
@[simp] theorem warnIf_txOut (b : Bool) (d : Detail) (op : Byte) : (warnIf b d op s).txOut = s.txOut := by cases b <;> rfl
@[simp] theorem warnIf_txStream (b : Bool) (d : Detail) (op : Byte) : (warnIf b d op s).txStream = s.txStream := by cases b <;> rfl
@[simp] theorem warnIf_rx (b : Bool) (d : Detail) (op : Byte) : (warnIf b d op s).rx = s.rx := by cases b <;> rfl
@[simp] theorem warnIf_rxLen (b : Bool) (d : Detail) (op : Byte) : (warnIf b d op s).rxLen = s.rxLen := by cases b <;> rfl
@[simp] theorem warnIf_rxState (b : Bool) (d : Detail) (op : Byte) : (warnIf b d op s).rxState = s.rxState := by cases b <;> rfl
@[simp] theorem warnIf_rxEnd (b : Bool) (d : Detail) (op : Byte) : (warnIf b d op s).rxEnd = s.rxEnd := by cases b <;> rfl
@[simp] theorem warnIf_verdict (b : Bool) (d : Detail) (op : Byte) : (warnIf b d op s).verdict = s.verdict := by cases b <;> rfl
@[simp] theorem warnIf_pay (b : Bool) (d : Detail) (op : Byte) : (warnIf b d op s).pay = s.pay := by cases b <;> rfl
@[simp] theorem warnIf_ack (b : Bool) (d : Detail) (op : Byte) : (warnIf b d op s).ack = s.ack := by cases b <;> rfl
@[simp] theorem warnIf_err (b : Bool) (d : Detail) (op : Byte) : (warnIf b d op s).err = s.err := by cases b <;> rfl
@[simp] theorem warnIf_errInfo (b : Bool) (d : Detail) (op : Byte) : (warnIf b d op s).errInfo = s.errInfo := by cases b <;> rfl
@[simp] theorem warnIf_diag (b : Bool) (d : Detail) (op : Byte) :
    (warnIf b d op s).diag = s.diag ++ (if b then logEntry d.diagCode d op else []) := by
  cases b <;> simp [warnIf]
@[simp] theorem warnIf_record (b : Bool) (d : Detail) (op : Byte) : (warnIf b d op s).record = s.record := by cases b <;> rfl
@[simp] theorem warnIf_inbox (b : Bool) (d : Detail) (op : Byte) : (warnIf b d op s).inbox = s.inbox := by cases b <;> rfl

end Updates

/-- A refusal of the block writes nothing but `err` and `err_info` (R229). -/
theorem callerError_eq (d : Detail) (op : Byte) (s : State) :
    callerError d op s = { s with err := .caller, errInfo := d } := by
  simp [callerError, raiseErr, ErrClass.diagCode, logEntry]

@[simp] theorem logEntry_none (d : Detail) (op : Byte) : logEntry none d op = [] := rfl

@[simp] theorem logEntry_some (c : DiagCode) (d : Detail) (op : Byte) :
    logEntry (some c) d op = [{ code := c, detail := d, op := op }] := rfl

/-! ## The reset state -/

@[simp] theorem reset_crc : State.reset.crc = 0xFFFF#16 := rfl
@[simp] theorem reset_cmd : State.reset.cmd = [] := rfl
@[simp] theorem reset_cmdLen : State.reset.cmdLen = 0 := rfl
@[simp] theorem reset_cmdOvf : State.reset.cmdOvf = false := rfl
@[simp] theorem reset_cmdBad : State.reset.cmdBad = false := rfl
@[simp] theorem reset_txPhase : State.reset.txPhase = .idle := rfl
@[simp] theorem reset_txIdx : State.reset.txIdx = 0 := rfl
@[simp] theorem reset_txMarker : State.reset.txMarker = 0x50#8 := rfl
@[simp] theorem reset_txOut : State.reset.txOut = 0x00#8 := rfl
@[simp] theorem reset_txStream : State.reset.txStream = [] := rfl
@[simp] theorem reset_rx : State.reset.rx = [] := rfl
@[simp] theorem reset_rxLen : State.reset.rxLen = 0 := rfl
@[simp] theorem reset_rxState : State.reset.rxState = .idle := rfl
@[simp] theorem reset_rxEnd : State.reset.rxEnd = .none := rfl
@[simp] theorem reset_verdict : State.reset.verdict = .cleared := rfl
@[simp] theorem reset_pay : State.reset.pay = .cleared := rfl
@[simp] theorem reset_ack : State.reset.ack = .none := rfl
@[simp] theorem reset_err : State.reset.err = .none := rfl
@[simp] theorem reset_errInfo : State.reset.errInfo = .none := rfl
@[simp] theorem reset_diag : State.reset.diag = [] := rfl
@[simp] theorem reset_record : State.reset.record = .cleared := rfl
@[simp] theorem reset_inbox : State.reset.inbox = [] := rfl

end Sys2Proof.Machine
end

