-- ==== Sys2Proof/Laws/Flags.lean ====
section
/-! SUPPORT. What the validator and the extractor can answer, and what their parts leave unchanged, said once. -/

namespace Sys2Proof.Machine

/-! ## The byte-string functions -/

theorem slice_length (s : ByteString) (a b : Nat) : (slice s a b).length = min b s.length - a := by simp [slice]

theorem slice_length_of_le {s : ByteString} {a b : Nat} (hb : b ≤ s.length) : (slice s a b).length = b - a := by
  rw [slice_length, Nat.min_eq_left hb]

@[simp] theorem payloadOf_length_of_le {raw : ByteString} {n : Nat} (h : 5 + n ≤ raw.length) : (payloadOf raw n).length = n := by
  rw [payloadOf, Config.headerLen, slice_length_of_le h]
  omega

/-! ## The validator -/

/-- What a valid Response is. -/
theorem validateAt_ok {T : Nat} {raw : ByteString} (h : (validateAt T raw).ok = true) :
    5 ≤ raw.length ∧ byteAt raw 0 = 0x5E#8 ∧ byteAt raw 1 = 0x44#8 ∧ allDigits (slice raw 2 5) = true ∧
      lengthError raw (num (slice raw 2 5)) ≤ T ∧
      validateAt T raw = ⟨true, .none, decide (1 ≤ lengthError raw (num (slice raw 2 5))), !endsWithTerminator raw,
        num (slice raw 2 5)⟩ := by
  revert h
  unfold validateAt fatal lengthField
  simp only [Config.mark0, Config.markData]
  repeat' split
  all_goals simp_all

/-- Which findings a reason goes with. -/
theorem validateAt_reason (T : Nat) (raw : ByteString) :
    ((validateAt T raw).ok = true ↔ (validateAt T raw).reason = .none) ∧
      ((validateAt T raw).ok = false → (validateAt T raw).soft = false ∧ (validateAt T raw).noterm = false) ∧
      ((validateAt T raw).reason ≠ .none → (validateAt T raw).reason ≠ .length → (validateAt T raw).declared = 0) := by
  simp only [validateAt, fatal]
  repeat' split
  all_goals simp

/-! ## The extractor -/

/-- A payload lies inside the Response, behind the header. -/
theorem extractAt_some {T : Nat} {trust : Trust} {raw : ByteString} {c : Cut} (h : extractAt T trust raw = some c) :
    (validateAt T raw).ok = true ∧ 5 + c.len ≤ raw.length := by
  unfold extractAt at h
  simp only at h
  split at h
  · rename_i hv
    refine ⟨hv, ?_⟩
    split at h
    · rename_i ht
      simp only [trusted, Bool.and_eq_true, Config.headerLen] at ht
      cases h
      exact of_decide_eq_true ht.2
    · split at h
      · cases h
      · cases h
        have := (validateAt_ok hv).1
        simp only [Config.headerLen]
        omega
  · cases h

theorem extractAt_none_of_invalid {T : Nat} {trust : Trust} {raw : ByteString} (h : (validateAt T raw).ok = false) :
    extractAt T trust raw = none := by
  simp [extractAt, h]

@[simp] theorem payRegs_isNull (x : Option Cut) : (payRegs x).isNull = x.isNone := by cases x <;> rfl

@[simp] theorem payRegs_valid (x : Option Cut) : (payRegs x).valid = true := by cases x <;> rfl

theorem payRegs_some_len (c : Cut) : (payRegs (some c)).len = c.len := rfl

/-! ## The parts -/

section Parts

variable (op : Byte) (raw : ByteString) (s : State)

@[simp] theorem validatePart_crc : (validatePart op raw s).crc = s.crc := by simp only [validatePart]; split <;> simp
@[simp] theorem validatePart_cmd : (validatePart op raw s).cmd = s.cmd := by simp only [validatePart]; split <;> simp
@[simp] theorem validatePart_cmdLen : (validatePart op raw s).cmdLen = s.cmdLen := by simp only [validatePart]; split <;> simp
@[simp] theorem validatePart_cmdOvf : (validatePart op raw s).cmdOvf = s.cmdOvf := by simp only [validatePart]; split <;> simp
@[simp] theorem validatePart_cmdBad : (validatePart op raw s).cmdBad = s.cmdBad := by simp only [validatePart]; split <;> simp
@[simp] theorem validatePart_txPhase : (validatePart op raw s).txPhase = s.txPhase := by simp only [validatePart]; split <;> simp
@[simp] theorem validatePart_txIdx : (validatePart op raw s).txIdx = s.txIdx := by simp only [validatePart]; split <;> simp
@[simp] theorem validatePart_txMarker : (validatePart op raw s).txMarker = s.txMarker := by simp only [validatePart]; split <;> simp
@[simp] theorem validatePart_txOut : (validatePart op raw s).txOut = s.txOut := by simp only [validatePart]; split <;> simp
@[simp] theorem validatePart_txStream : (validatePart op raw s).txStream = s.txStream := by simp only [validatePart]; split <;> simp
@[simp] theorem validatePart_rx : (validatePart op raw s).rx = s.rx := by simp only [validatePart]; split <;> simp
@[simp] theorem validatePart_rxLen : (validatePart op raw s).rxLen = s.rxLen := by simp only [validatePart]; split <;> simp
@[simp] theorem validatePart_rxState : (validatePart op raw s).rxState = s.rxState := by simp only [validatePart]; split <;> simp
@[simp] theorem validatePart_rxEnd : (validatePart op raw s).rxEnd = s.rxEnd := by simp only [validatePart]; split <;> simp
@[simp] theorem validatePart_pay : (validatePart op raw s).pay = s.pay := by simp only [validatePart]; split <;> simp
@[simp] theorem validatePart_ack : (validatePart op raw s).ack = s.ack := by simp only [validatePart]; split <;> simp
@[simp] theorem validatePart_record : (validatePart op raw s).record = s.record := by simp only [validatePart]; split <;> simp
@[simp] theorem validatePart_inbox : (validatePart op raw s).inbox = s.inbox := by simp only [validatePart]; split <;> simp
@[simp] theorem validatePart_verdict : (validatePart op raw s).verdict = (validate raw).regs := by
  simp only [validatePart]; split <;> simp

@[simp] theorem extractPart_crc : (extractPart op raw s).crc = s.crc := by
  unfold extractPart; cases extract raw <;> simp; split <;> simp
@[simp] theorem extractPart_cmd : (extractPart op raw s).cmd = s.cmd := by
  unfold extractPart; cases extract raw <;> simp; split <;> simp
@[simp] theorem extractPart_cmdLen : (extractPart op raw s).cmdLen = s.cmdLen := by
  unfold extractPart; cases extract raw <;> simp; split <;> simp
@[simp] theorem extractPart_cmdOvf : (extractPart op raw s).cmdOvf = s.cmdOvf := by
  unfold extractPart; cases extract raw <;> simp; split <;> simp
@[simp] theorem extractPart_cmdBad : (extractPart op raw s).cmdBad = s.cmdBad := by
  unfold extractPart; cases extract raw <;> simp; split <;> simp
@[simp] theorem extractPart_txPhase : (extractPart op raw s).txPhase = s.txPhase := by
  unfold extractPart; cases extract raw <;> simp; split <;> simp
@[simp] theorem extractPart_txIdx : (extractPart op raw s).txIdx = s.txIdx := by
  unfold extractPart; cases extract raw <;> simp; split <;> simp
@[simp] theorem extractPart_txMarker : (extractPart op raw s).txMarker = s.txMarker := by
  unfold extractPart; cases extract raw <;> simp; split <;> simp
@[simp] theorem extractPart_txOut : (extractPart op raw s).txOut = s.txOut := by
  unfold extractPart; cases extract raw <;> simp; split <;> simp
@[simp] theorem extractPart_txStream : (extractPart op raw s).txStream = s.txStream := by
  unfold extractPart; cases extract raw <;> simp; split <;> simp
@[simp] theorem extractPart_rx : (extractPart op raw s).rx = s.rx := by
  unfold extractPart; cases extract raw <;> simp; split <;> simp
@[simp] theorem extractPart_rxLen : (extractPart op raw s).rxLen = s.rxLen := by
  unfold extractPart; cases extract raw <;> simp; split <;> simp
@[simp] theorem extractPart_rxState : (extractPart op raw s).rxState = s.rxState := by
  unfold extractPart; cases extract raw <;> simp; split <;> simp
@[simp] theorem extractPart_rxEnd : (extractPart op raw s).rxEnd = s.rxEnd := by
  unfold extractPart; cases extract raw <;> simp; split <;> simp
@[simp] theorem extractPart_ack : (extractPart op raw s).ack = s.ack := by
  unfold extractPart; cases extract raw <;> simp; split <;> simp
@[simp] theorem extractPart_record : (extractPart op raw s).record = s.record := by
  unfold extractPart; cases extract raw <;> simp; split <;> simp
@[simp] theorem extractPart_inbox : (extractPart op raw s).inbox = s.inbox := by
  unfold extractPart; cases extract raw <;> simp; split <;> simp
@[simp] theorem extractPart_verdict : (extractPart op raw s).verdict = (validate raw).regs := by
  unfold extractPart; cases extract raw <;> simp; split <;> simp
@[simp] theorem extractPart_pay : (extractPart op raw s).pay = payRegs (extract raw) := by
  unfold extractPart; cases extract raw <;> simp; split <;> simp

end Parts

/-- All that the validator part does, as one update of the state whose values depend on the Response alone: the verdict registers, the
outcome and the log. -/
theorem validatePart_eq (op : Byte) (raw : ByteString) :
    ∃ e d new, (∀ s : State, validatePart op raw s =
        { s with verdict := (validate raw).regs, err := e, errInfo := d, diag := s.diag ++ new }) ∧
      ((validate raw).ok = true → e = .none ∧ d = .none ∧
        new = (if (validate raw).soft then [⟨.eProto, .wLengthSoft, op⟩] else []) ++
          (if (validate raw).noterm then [⟨.eProto, .wNoterm, op⟩] else [])) ∧
      ((validate raw).ok = false → e = .protocol ∧ d = (validate raw).reason.detail ∧
        new = [⟨.eProto, (validate raw).reason.detail, op⟩]) := by
  by_cases h : (validate raw).ok = true
  · refine ⟨.none, .none, _, fun s => ?_, fun _ => ⟨rfl, rfl, rfl⟩, fun h' => absurd h (by simp [h'])⟩
    simp only [validatePart, h, if_true]
    cases (validate raw).soft <;> cases (validate raw).noterm <;> simp [warnIf, warnDiag, succeed, Detail.diagCode, logEntry]
  · refine ⟨.protocol, _, _, fun s => ?_, fun h' => absurd h' h, fun _ => ⟨rfl, rfl, rfl⟩⟩
    simp [validatePart, h, raiseErr, ErrClass.diagCode, logEntry]

/-- All that the extractor part does, as one update of the state whose values depend on the Response alone: the verdict and the
extractor's registers, the outcome and the log. -/
theorem extractPart_eq (op : Byte) (raw : ByteString) :
    ∃ e d new, (∀ s : State, extractPart op raw s =
        { s with verdict := (validate raw).regs, pay := payRegs (extract raw), err := e, errInfo := d, diag := s.diag ++ new }) ∧
      ((extract raw).isSome = true → e = .none ∧ d = .none) ∧
      (extract raw = none → e = .protocol ∧ d ∈ [.vEmpty, .vMarker, .vLenField, .vLength, .xShort]) ∧
      ∀ x ∈ new, x.op = op ∧ x.code = .eProto ∧
        x.detail ∈ [.vEmpty, .vMarker, .vLenField, .vLength, .xShort, .wLengthSoft, .wNoterm, .xFallback] := by
  obtain ⟨e, d, new, h, h1, h2⟩ := validatePart_eq op raw
  have hreason : (validate raw).ok = false → (validate raw).reason.detail ∈ [Detail.vEmpty, .vMarker, .vLenField, .vLength] := by
    intro hf
    have := (validateAt_reason Config.lenTolerance raw).1
    change (validate raw).ok = true ↔ _ at this
    change _ ↔ (validate raw).reason = .none at this
    cases hr : (validate raw).reason <;> simp_all [Reason.detail]
  unfold extractPart
  simp only [h]
  cases hx : extract raw with
  | none =>
    cases hv : (validate raw).ok
    · obtain ⟨he, hd, hn⟩ := h2 hv
      refine ⟨e, d, new, fun s => by simp only [Bool.false_eq_true, if_false], by simp, fun _ => ⟨he, ?_⟩, ?_⟩
      · have := hreason hv
        simp only [hd, List.mem_cons, List.not_mem_nil, or_false] at this ⊢
        tauto
      · have := hreason hv
        simp only [hn, List.mem_cons, List.not_mem_nil, or_false] at this ⊢
        rintro x rfl
        tauto
    · obtain ⟨he, hd, hn⟩ := h1 hv
      refine ⟨_, _, _, fun s => by simp only [if_true, raiseErr, List.append_assoc]; rfl, by simp, by simp, ?_⟩
      rw [hn]
      cases (validate raw).soft <;> cases (validate raw).noterm <;> simp [logEntry, ErrClass.diagCode]
  | some c =>
    obtain ⟨he, hd, hn⟩ := h1 (extractAt_some hx).1
    cases hc : c.fallback
    · refine ⟨e, d, new, fun s => by simp only [warnIf, hc, Bool.false_eq_true, if_false], fun _ => ⟨he, hd⟩, by simp, ?_⟩
      rw [hn]
      cases (validate raw).soft <;> cases (validate raw).noterm <;> simp
    · refine ⟨_, _, _, fun s => by simp only [warnIf, hc, warnDiag, if_true, List.append_assoc]; rfl, fun _ => ⟨he, hd⟩, by simp, ?_⟩
      rw [hn]
      cases (validate raw).soft <;> cases (validate raw).noterm <;> simp [logEntry, Detail.diagCode]

/-- After the extractor part an operation with a payload has no error. -/
theorem extractPart_ok {op : Byte} {raw : ByteString} {s : State} {c : Cut} (h : extract raw = some c) :
    (extractPart op raw s).err = .none ∧ (extractPart op raw s).errInfo = .none := by
  obtain ⟨e, d, new, heq, hok, -⟩ := extractPart_eq op raw
  rw [heq]
  exact hok (by simp [h])

end Sys2Proof.Machine
end

