-- ==== Sys2Proof/Laws/Ops.lean ====
section
/-! SUPPORT. What the guards and the step can do, said once: every later proof cites these and unfolds none of them. -/

namespace Sys2Proof.Machine

/-! ## Guards -/

theorem State.busy_eq (s : State) : s.busy = decide (s.txPhase ≠ .idle) := by
  unfold State.busy
  cases s.txPhase <;> rfl

theorem whenNotBusy_idle {i : Instr} {s : State} {k : State → Result} (h : s.txPhase = .idle) : whenNotBusy i s k = k s := by
  simp [whenNotBusy, State.busy_eq, h]

theorem whenNotBusy_busy {i : Instr} {s : State} {k : State → Result} (h : s.txPhase ≠ .idle) :
    whenNotBusy i s k = .next { s with err := .caller, errInfo := .busy } := by
  simp [whenNotBusy, State.busy_eq, h, callerError_eq]

/-- What an operation that is excluded while a frame goes out can do. -/
theorem whenNotBusy_next {i : Instr} {s t : State} {k : State → Result} :
    whenNotBusy i s k = .next t ↔
      (s.txPhase = .idle ∧ k s = .next t) ∨ (s.txPhase ≠ .idle ∧ t = { s with err := .caller, errInfo := .busy }) := by
  by_cases h : s.txPhase = .idle
  · simp [whenNotBusy_idle h, h]
  · simp [whenNotBusy_busy h, h, eq_comm]

theorem withResponse_done {i : Instr} {s : State} {k : ByteString → Result} (h : s.rxState = .done) (hl : s.rxLen ≤ 1000) :
    withResponse i s k = k s.response := by
  simp [withResponse, h, hl, Config.rxMax]

theorem withResponse_not_done {i : Instr} {s : State} {k : ByteString → Result} (h : s.rxState ≠ .done) :
    withResponse i s k = .next { s with err := .caller, errInfo := .notReady } := by
  simp [withResponse, h, callerError_eq]

/-- What an operation that needs a Response can do. -/
theorem withResponse_next {i : Instr} {s t : State} {k : ByteString → Result} :
    withResponse i s k = .next t ↔
      (s.rxState = .done ∧ s.rxLen ≤ 1000 ∧ k s.response = .next t) ∨
        (s.rxState ≠ .done ∧ t = { s with err := .caller, errInfo := .notReady }) := by
  by_cases h : s.rxState = .done
  · by_cases hl : s.rxLen ≤ 1000
    · simp [withResponse_done h hl, h, hl]
    · simp [withResponse, h, hl, Config.rxMax]
  · simp [withResponse_not_done h, h, eq_comm]

/-! ## The step -/

theorem illegalOp_eq (w : OpWord) (s : State) : illegalOp w s = { s with err := .caller, errInfo := .illegalOp } :=
  callerError_eq _ _ _

theorem step_of_nil {s : State} (h : s.inbox = []) : step s = .next s := by simp [step, takeWord, h]

theorem step_of_cons {s : State} {p : Presented} {rest : List Presented} (h : s.inbox = p :: rest) :
    step s = runWord p.word { s with inbox := rest } := by simp [step, takeWord, h]

/-- What a word does: its operation, or the refusal of a reserved word. -/
theorem runWord_next {w : OpWord} {s t : State} :
    runWord w s = .next t ↔
      (∃ i, decode w = .ok i ∧ exec i s = .next t) ∨
        (∃ r, decode w = .error r) ∧ t = { s with err := .caller, errInfo := .illegalOp } := by
  unfold runWord
  cases decode w <;> simp [illegalOp_eq, eq_comm]

/-- What a step does: nothing, the operation of the word presented next, or the refusal of a reserved word. -/
theorem step_next {s t : State} :
    step s = .next t ↔
      (s.inbox = [] ∧ t = s) ∨
        ∃ p rest, s.inbox = p :: rest ∧
          ((∃ i, decode p.word = .ok i ∧ exec i { s with inbox := rest } = .next t) ∨
            (∃ r, decode p.word = .error r) ∧ t = { s with inbox := rest, err := .caller, errInfo := .illegalOp }) := by
  cases h : s.inbox with
  | nil => simp [step_of_nil h, eq_comm]
  | cons p rest => simp [step_of_cons h, runWord_next]

end Sys2Proof.Machine
end

