-- ==== Sys2Proof/Laws/Decoders.lean ====
section
/-! SUPPORT. What a field decoder can do, said once per decoder and once for all operations that need a Response: which registers it
writes, with which outcome, and what it logs. -/

namespace Sys2Proof.Machine

/-! ## The common frame -/

/-- What a decoder of the common frame can do: refuse, stop without a payload or with an empty one, or run its own rule. -/
theorem withPayload_next {i : Instr} {tag : RecTag} {s t : State} {k : ByteString → State → State} :
    withPayload i tag s k = .next t ↔
      (s.rxState ≠ .done ∧ t = { s with err := .caller, errInfo := .notReady }) ∨
        (s.rxState = .done ∧ s.rxLen ≤ 1000 ∧
          ((extract s.response = none ∧ t = setRecord tag true false .none (extractPart (opcode i) s.response s)) ∨
            (∃ c, extract s.response = some c ∧ c.len = 0 ∧
              t = noRecord tag .pShort (opcode i) (extractPart (opcode i) s.response s)) ∨
            (∃ c, extract s.response = some c ∧ c.len ≠ 0 ∧
              t = k (payloadOf s.response c.len) (extractPart (opcode i) s.response s)))) := by
  unfold withPayload
  rw [withResponse_next]
  cases hx : extract s.response with
  | none => simp [hx]; tauto
  | some c => by_cases hc : c.len = 0 <;> simp [hx, payRegs, hc] <;> tauto

/-- A decoder of the common frame on a payload. -/
theorem withPayload_payload {i : Instr} {tag : RecTag} {s : State} {k : ByteString → State → State} {c : Cut}
    (h : s.rxState = .done) (hl : s.rxLen ≤ 1000) (hx : extract s.response = some c) (hc : 0 < c.len) :
    withPayload i tag s k = .next (k (payloadOf s.response c.len) (extractPart (opcode i) s.response s)) :=
  withPayload_next.2 (.inr ⟨h, hl, .inr (.inr ⟨c, hx, by omega, rfl⟩)⟩)

/-- The parameters of the block as the statements write them. -/
theorem extract_eq (raw : ByteString) : extract raw = extractAt 2 .clean raw := rfl

theorem payloadOf_eq (raw : ByteString) (n : Nat) : payloadOf raw n = slice raw 5 (5 + n) := rfl

/-! ## The four ways to write a record, as updates of the state -/

theorem fullRecord_eq (tag : RecTag) (f : Fields) (u : State) : fullRecord tag f u =
    { u with record := ⟨tag, false, false, f⟩, err := .none, errInfo := .none, diag := u.diag ++ [] } := by
  simp [fullRecord, setRecord, succeed]

theorem shortRecord_eq (tag : RecTag) (f : Fields) (d : Detail) (op : Byte) (u : State) : shortRecord tag f d op u =
    { u with record := ⟨tag, false, true, f⟩, err := .parse, errInfo := d, diag := u.diag ++ [⟨.eParse, d, op⟩] } := rfl

theorem noRecord_eq (tag : RecTag) (d : Detail) (op : Byte) (u : State) : noRecord tag d op u =
    { u with record := ⟨tag, true, false, .none⟩, err := .parse, errInfo := d, diag := u.diag ++ [⟨.eParse, d, op⟩] } := rfl

theorem fallbackRecord_eq (tag : RecTag) (f : Fields) (d : Detail) (op : Byte) (u : State) : fallbackRecord tag f d op u =
    { u with record := ⟨tag, false, true, f⟩, err := .none, errInfo := .none, diag := u.diag ++ logEntry d.diagCode d op } := rfl

theorem warned_eq (b : Bool) (d : Detail) (op : Byte) (tag : RecTag) (part : Bool) (f : Fields) (u : State) :
    warnIf b d op (succeed (setRecord tag false part f u)) =
      { u with record := ⟨tag, false, part, f⟩, err := .none, errInfo := .none,
               diag := u.diag ++ if b then logEntry d.diagCode d op else [] } := by
  cases b <;> simp [warnIf, warnDiag, succeed, setRecord]

/-! ## Each decoder's rule: the record, the outcome and the log, whatever the state -/

section Rules

variable (p : ByteString)

theorem decodeProtocolId_eq : ∃ r e d new,
    (∀ u, decodeProtocolId p u = { u with record := r, err := e, errInfo := d, diag := u.diag ++ new }) ∧
      ((e = .none ∧ d = .none) ∨ (e = .parse ∧ d ∈ ([] : List Detail))) ∧
      ∀ x ∈ new, x.op = 0x50#8 ∧ x.code = .eParse ∧ x.detail ∈ [.pShort] := by
  exact ⟨_, _, _, _, fullRecord_eq _ _, .inl ⟨rfl, rfl⟩, by simp⟩

theorem decodeSerial_eq : ∃ r e d new,
    (∀ u, decodeSerial p u = { u with record := r, err := e, errInfo := d, diag := u.diag ++ new }) ∧
      ((e = .none ∧ d = .none) ∨ (e = .parse ∧ d ∈ ([] : List Detail))) ∧
      ∀ x ∈ new, x.op = 0x54#8 ∧ x.code = .eParse ∧ x.detail ∈ [.pLengthMismatch, .pFormat] := by
  simp only [decodeSerial]
  by_cases h1 : 2 ≤ p.length ∧ allDigits (slice p 0 2) = true
  · simp only [h1, and_self, if_true]
    by_cases h2 : min (num (slice p 0 2)) (p.length - 2) = num (slice p 0 2)
    · simp only [h2, if_true]
      exact ⟨_, _, _, _, fullRecord_eq _ _, .inl ⟨rfl, rfl⟩, by simp⟩
    · simp only [h2, if_false]
      exact ⟨_, _, _, _, fallbackRecord_eq _ _ _ _, .inl ⟨rfl, rfl⟩, by simp [logEntry, Detail.diagCode, opcode]⟩
  · simp only [h1, if_false]
    exact ⟨_, _, _, _, fallbackRecord_eq _ _ _ _, .inl ⟨rfl, rfl⟩, by simp [logEntry, Detail.diagCode, opcode]⟩

theorem decodeFirmware_eq : ∃ r e d new,
    (∀ u, decodeFirmware p u = { u with record := r, err := e, errInfo := d, diag := u.diag ++ new }) ∧
      ((e = .none ∧ d = .none) ∨ (e = .parse ∧ d ∈ [.pShort])) ∧
      ∀ x ∈ new, x.op = 0x55#8 ∧ x.code = .eParse ∧ x.detail ∈ [.pShort] := by
  simp only [decodeFirmware]
  by_cases h : 3 ≤ (payloadSlices p).length
  · simp only [h, if_true]
    exact ⟨_, _, _, _, fullRecord_eq _ _, .inl ⟨rfl, rfl⟩, by simp⟩
  · simp only [h, if_false]
    exact ⟨_, _, _, _, shortRecord_eq _ _ _ _, .inr ⟨rfl, by simp⟩, by simp [opcode]⟩

theorem decodeMode_eq : ∃ r e d new,
    (∀ u, decodeMode p u = { u with record := r, err := e, errInfo := d, diag := u.diag ++ new }) ∧
      ((e = .none ∧ d = .none) ∨ (e = .parse ∧ d ∈ [.pShort, .pFormat])) ∧
      ∀ x ∈ new, x.op = 0x52#8 ∧ x.code = .eParse ∧ x.detail ∈ [.pShort, .pFormat] := by
  simp only [decodeMode]
  by_cases h1 : p.length < 5
  · simp only [h1, if_true]
    exact ⟨_, _, _, _, noRecord_eq _ _ _, .inr ⟨rfl, by simp⟩, by simp [opcode]⟩
  · simp only [h1, if_false]
    by_cases h2 : slice p 0 4 ≠ modePrefix ∨ isDigit (byteAt p 4) = false
    · simp only [h2, if_true]
      exact ⟨_, _, _, _, noRecord_eq _ _ _, .inr ⟨rfl, by simp⟩, by simp [opcode]⟩
    · simp only [h2, if_false]
      exact ⟨_, _, _, _, fullRecord_eq _ _, .inl ⟨rfl, rfl⟩, by simp⟩

theorem decodeTime_eq : ∃ r e d new,
    (∀ u, decodeTime p u = { u with record := r, err := e, errInfo := d, diag := u.diag ++ new }) ∧
      ((e = .none ∧ d = .none) ∨ (e = .parse ∧ d ∈ [.pShort, .pFormat])) ∧
      ∀ x ∈ new, x.op = 0x58#8 ∧ x.code = .eParse ∧ x.detail ∈ [.pShort, .pFormat] := by
  simp only [decodeTime]
  by_cases h1 : p.length < 14
  · simp only [h1, if_true]
    exact ⟨_, _, _, _, noRecord_eq _ _ _, .inr ⟨rfl, by simp⟩, by simp [opcode]⟩
  · simp only [h1, if_false]
    by_cases h2 : allDigits (slice p 0 14) = false
    · simp only [h2, if_true]
      exact ⟨_, _, _, _, noRecord_eq _ _ _, .inr ⟨rfl, by simp⟩, by simp [opcode]⟩
    · simp only [h2]
      exact ⟨_, _, _, _, fullRecord_eq _ _, .inl ⟨rfl, rfl⟩, by simp⟩

theorem decodeStatusWith_eq (m : List GsEntry) (names : DirField → DirCode → ByteString)
    (missing : GsEntry → List ByteString → Option ByteString) : ∃ r e d new,
    (∀ u, decodeStatusWith m names missing p u = { u with record := r, err := e, errInfo := d, diag := u.diag ++ new }) ∧
      ((e = .none ∧ d = .none) ∨ (e = .parse ∧ d ∈ [.pShort])) ∧
      ∀ x ∈ new, x.op = 0x51#8 ∧ x.code = .eParse ∧ x.detail ∈ [.pShort, .pField] := by
  simp only [decodeStatusWith]
  by_cases h1 : (payloadFields p).length < Config.gsMinFields
  · simp only [h1, if_true]
    exact ⟨_, _, _, _, noRecord_eq _ _ _, .inr ⟨rfl, by simp⟩, by simp [opcode]⟩
  · simp only [h1, if_false]
    refine ⟨_, _, _, _, warned_eq _ _ _ _ _ _, .inl ⟨rfl, rfl⟩, ?_⟩
    cases gsFieldFails m missing (payloadFields p) <;> simp [logEntry, Detail.diagCode, opcode]

theorem decodeFault_eq : ∃ r e d new,
    (∀ u, decodeFault p u = { u with record := r, err := e, errInfo := d, diag := u.diag ++ new }) ∧
      ((e = .none ∧ d = .none) ∨ (e = .parse ∧ d ∈ [.pShort, .pField])) ∧
      ∀ x ∈ new, x.op = 0x53#8 ∧ x.code = .eParse ∧ x.detail ∈ [.pShort, .pField] := by
  simp only [decodeFault]
  by_cases h1 : (payloadFields p).length < Config.faultMinFields
  · simp only [h1, if_true]
    exact ⟨_, _, _, _, noRecord_eq _ _ _, .inr ⟨rfl, by simp⟩, by simp [opcode]⟩
  · simp only [h1, if_false]
    by_cases h2 : numField (fieldAt (payloadFields p) 0) = none
    · simp only [h2, if_true]
      exact ⟨_, _, _, _, shortRecord_eq _ _ _ _, .inr ⟨rfl, by simp⟩, by simp [opcode]⟩
    · simp only [h2, if_false]
      exact ⟨_, _, _, _, fullRecord_eq _ _, .inl ⟨rfl, rfl⟩, by simp⟩

theorem decodeRatedWith_eq (m : List RatedEntry) (enums : EnumTable → Nat → Option ByteString) : ∃ r e d new,
    (∀ u, decodeRatedWith m enums p u = { u with record := r, err := e, errInfo := d, diag := u.diag ++ new }) ∧
      ((e = .none ∧ d = .none) ∨ (e = .parse ∧ d ∈ [.pShort])) ∧
      ∀ x ∈ new, x.op = 0x56#8 ∧ x.code = .eParse ∧ x.detail ∈ [.pShort, .pField] := by
  simp only [decodeRatedWith, warned_eq]
  cases decide ((payloadFields p).length < Config.ratedMinFields)
  · simp only [Bool.false_eq_true, if_false]
    refine ⟨_, _, _, _, fun _ => rfl, .inl ⟨rfl, rfl⟩, ?_⟩
    cases ratedFieldFails m (payloadFields p) <;> simp [logEntry, Detail.diagCode, opcode]
  · simp only [if_true, raiseErr, List.append_assoc]
    refine ⟨_, _, _, _, fun _ => rfl, .inr ⟨rfl, by simp⟩, ?_⟩
    cases ratedFieldFails m (payloadFields p) <;> simp [logEntry, Detail.diagCode, ErrClass.diagCode, opcode]

theorem decodeModelWith_eq (table : ByteString → Option ByteString) : ∃ r e d new,
    (∀ u, decodeModelWith table p u = { u with record := r, err := e, errInfo := d, diag := u.diag ++ new }) ∧
      ((e = .none ∧ d = .none) ∨ (e = .parse ∧ d ∈ [.pShort])) ∧
      ∀ x ∈ new, x.op = 0x57#8 ∧ x.code = .eParse ∧ x.detail ∈ [.pShort] := by
  simp only [decodeModelWith]
  by_cases h1 : p.length < 2
  · simp only [h1, if_true]
    exact ⟨_, _, _, _, noRecord_eq _ _ _, .inr ⟨rfl, by simp⟩, by simp [opcode]⟩
  · simp only [h1, if_false]
    cases table (slice p 0 2) with
    | none => exact ⟨_, _, _, _, fullRecord_eq _ _, .inl ⟨rfl, rfl⟩, by simp⟩
    | some name => exact ⟨_, _, _, _, fullRecord_eq _ _, .inl ⟨rfl, rfl⟩, by simp⟩

theorem decodeSchedule_eq : ∃ r e d new,
    (∀ u, decodeSchedule p u = { u with record := r, err := e, errInfo := d, diag := u.diag ++ new }) ∧
      ((e = .none ∧ d = .none) ∨ (e = .parse ∧ d ∈ ([] : List Detail))) ∧
      ∀ x ∈ new, x.op = 0x59#8 ∧ x.code = .eParse ∧ x.detail ∈ [.pShort, .pFormat] := by
  simp only [decodeSchedule]
  cases scheduleShape p
  · simp only [Bool.false_eq_true, if_false, fullRecord_eq, warnDiag, List.append_nil]
    refine ⟨_, _, _, _, fun _ => rfl, .inl ⟨rfl, rfl⟩, ?_⟩
    split <;> simp [logEntry, Detail.diagCode, opcode]
  · simp only [if_true]
    exact ⟨_, _, _, _, fullRecord_eq _ _, .inl ⟨rfl, rfl⟩, by simp⟩

theorem decodeEnergy_eq : ∃ r e d new,
    (∀ u, decodeEnergy p u = { u with record := r, err := e, errInfo := d, diag := u.diag ++ new }) ∧
      ((e = .none ∧ d = .none) ∨ (e = .parse ∧ d ∈ [.pFormat])) ∧
      ∀ x ∈ new, x.op = 0x5A#8 ∧ x.code = .eParse ∧ x.detail ∈ [.pFormat] := by
  simp only [decodeEnergy]
  cases energyRun (p.filter isAlnum) with
  | none => exact ⟨_, _, _, _, noRecord_eq _ _ _, .inr ⟨rfl, by simp⟩, by simp [opcode]⟩
  | some run => exact ⟨_, _, _, _, fullRecord_eq _ _, .inl ⟨rfl, rfl⟩, by simp⟩

end Rules

/-! ## Every operation that needs a Response -/

/-- The update that a decoder's rule is, without its facts. -/
theorem writes_of {k : State → State} {Q : ErrClass → Detail → List DiagEntry → Prop}
    (h : ∃ r e d new, (∀ u, k u = { u with record := r, err := e, errInfo := d, diag := u.diag ++ new }) ∧ Q e d new) :
    ∃ r e d new, ∀ u, k u = { u with record := r, err := e, errInfo := d, diag := u.diag ++ new } := by
  obtain ⟨r, e, d, new, h, -⟩ := h
  exact ⟨r, e, d, new, h⟩

/-- A decoder of the common frame as one update of the state, whose values depend on the Response alone. -/
theorem withPayload_eq (i : Instr) (tag : RecTag) (k : ByteString → State → State)
    (hk : ∀ p, ∃ r e d new, ∀ u, k p u = { u with record := r, err := e, errInfo := d, diag := u.diag ++ new }) (raw : ByteString) :
    ∃ r e d new, ∀ s : State, s.rxState = .done → s.rxLen ≤ 1000 → s.response = raw →
      withPayload i tag s k = .next { s with
        verdict := (validate raw).regs, pay := payRegs (extract raw), record := r, err := e, errInfo := d, diag := s.diag ++ new } := by
  obtain ⟨E, D, N, hE, -⟩ := extractPart_eq (opcode i) raw
  cases hx : extract raw with
  | none =>
    refine ⟨⟨tag, true, false, .none⟩, E, D, N, fun s h hl hr => withPayload_next.2 (.inr ⟨h, hl, .inl ⟨hr ▸ hx, ?_⟩⟩)⟩
    rw [hr, hE, hx]
    rfl
  | some c =>
    by_cases hc : c.len = 0
    · refine ⟨⟨tag, true, false, .none⟩, .parse, .pShort, N ++ [⟨.eParse, .pShort, opcode i⟩], fun s h hl hr =>
        withPayload_next.2 (.inr ⟨h, hl, .inr (.inl ⟨c, hr ▸ hx, hc, ?_⟩)⟩)⟩
      rw [hr, hE, hx, noRecord_eq]
      simp only [List.append_assoc]
    · obtain ⟨r, e, d, new, hk⟩ := hk (payloadOf raw c.len)
      refine ⟨r, e, d, N ++ new, fun s h hl hr => withPayload_next.2 (.inr ⟨h, hl, .inr (.inr ⟨c, hr ▸ hx, hc, ?_⟩)⟩)⟩
      rw [hr, hk, hE, hx]
      simp only [List.append_assoc]

/-- Every operation that needs a Response, as one update of the state: only the verdict, extractor, acknowledgement, record and outcome
registers and the log are written, and the values depend on the Response alone. -/
theorem exec_response (i : Instr) (hi : needsResponse i = true) (raw : ByteString) :
    ∃ (v : Option VerdictRegs) (p : Option PayRegs) (a : Option Ack) (r : Option Record) (e : ErrClass) (d : Detail)
      (new : List DiagEntry),
      (v = none ∨ v = some (validate raw).regs) ∧ (p = none ∨ p = some (payRegs (extract raw))) ∧
      (a = none ∨ a = some (if isAck raw then .accepted else .refused)) ∧
      ∀ s : State, s.rxState = .done → s.rxLen ≤ 1000 → s.response = raw →
        exec i s = .next { s with
          verdict := v.getD s.verdict, pay := p.getD s.pay, ack := a.getD s.ack, record := r.getD s.record, err := e, errInfo := d,
          diag := s.diag ++ new } := by
  have framed : ∀ (tag : RecTag) (k : ByteString → State → State), (∀ s, exec i s = withPayload i tag s k) →
      (∀ p, ∃ r e d new, ∀ u, k p u = { u with record := r, err := e, errInfo := d, diag := u.diag ++ new }) →
      ∃ (v : Option VerdictRegs) (p : Option PayRegs) (a : Option Ack) (r : Option Record) (e : ErrClass) (d : Detail)
        (new : List DiagEntry),
        (v = none ∨ v = some (validate raw).regs) ∧ (p = none ∨ p = some (payRegs (extract raw))) ∧
        (a = none ∨ a = some (if isAck raw then .accepted else .refused)) ∧
        ∀ s : State, s.rxState = .done → s.rxLen ≤ 1000 → s.response = raw →
          exec i s = .next { s with
            verdict := v.getD s.verdict, pay := p.getD s.pay, ack := a.getD s.ack, record := r.getD s.record, err := e,
            errInfo := d, diag := s.diag ++ new } := by
    intro tag k hex hk
    obtain ⟨r, e, d, new, h⟩ := withPayload_eq i tag k hk raw
    exact ⟨some _, some _, none, some r, e, d, new, .inr rfl, .inr rfl, .inl rfl, fun s h1 h2 h3 => by
      rw [hex, h s h1 h2 h3]
      rfl⟩
  cases i <;> simp only [needsResponse, Bool.false_eq_true] at hi
  case validate =>
    obtain ⟨e, d, new, h, -⟩ := validatePart_eq (opcode .validate) raw
    exact ⟨some _, none, none, none, e, d, new, .inr rfl, .inl rfl, .inl rfl, fun s h1 h2 h3 => by
      rw [exec, execValidate, withResponse_done h1 h2, h3, h]
      rfl⟩
  case extract =>
    obtain ⟨e, d, new, h, -⟩ := extractPart_eq (opcode .extract) raw
    exact ⟨some _, some _, none, none, e, d, new, .inr rfl, .inr rfl, .inl rfl, fun s h1 h2 h3 => by
      rw [exec, execExtract, withResponse_done h1 h2, h3, h]
      rfl⟩
  case ackCheck =>
    refine ⟨none, none, some (if isAck raw then .accepted else .refused), none, if isAck raw then .none else .refused,
      if isAck raw then .none else .notAck, [], .inl rfl, .inl rfl, .inr rfl, fun s h1 h2 h3 => ?_⟩
    rw [exec, execAckCheck, withResponse_done h1 h2, h3]
    cases isAck raw <;> simp [succeed, raiseErr, logEntry, ErrClass.diagCode]
  case decSchedule =>
    obtain ⟨E, D, N, hE, -⟩ := extractPart_eq (opcode .decSchedule) raw
    cases hx : extract raw with
    | none =>
      refine ⟨some (validate raw).regs, some (payRegs none), none, some ⟨.schedule, false, false, defaultSchedule⟩, .none, .none, N,
        .inr rfl, .inr rfl, .inl rfl, fun s h1 h2 h3 => ?_⟩
      rw [exec, execDecSchedule, withResponse_done h1 h2, h3, hE, hx]
      rfl
    | some c =>
      obtain ⟨r, e, d, new, hk, -⟩ := decodeSchedule_eq (payloadOf raw c.len)
      refine ⟨some (validate raw).regs, some (payRegs (some c)), none, some r, e, d, N ++ new, .inr rfl, .inr rfl, .inl rfl,
        fun s h1 h2 h3 => ?_⟩
      rw [exec, execDecSchedule, withResponse_done h1 h2, h3, hE, hx]
      simp only [payRegs_isNull, Option.isNone_some, Bool.false_eq_true, if_false, payRegs_some_len, hk, List.append_assoc]
      rfl
  case decEnergy =>
    obtain ⟨r, e, d, new, hk, -⟩ := decodeEnergy_eq raw
    refine ⟨none, none, none, some r, e, d, new, .inl rfl, .inl rfl, .inl rfl, fun s h1 h2 h3 => ?_⟩
    rw [exec, execDecEnergy, withResponse_done h1 h2, h3, hk]
    rfl
  case decProtocolId => exact framed _ _ (fun _ => rfl) fun p => writes_of (decodeProtocolId_eq p)
  case decStatus => exact framed _ _ (fun _ => rfl) fun p => writes_of (decodeStatusWith_eq p _ _ _)
  case decMode => exact framed _ _ (fun _ => rfl) fun p => writes_of (decodeMode_eq p)
  case decFault => exact framed _ _ (fun _ => rfl) fun p => writes_of (decodeFault_eq p)
  case decSerial => exact framed _ _ (fun _ => rfl) fun p => writes_of (decodeSerial_eq p)
  case decFirmware => exact framed _ _ (fun _ => rfl) fun p => writes_of (decodeFirmware_eq p)
  case decRated => exact framed _ _ (fun _ => rfl) fun p => writes_of (decodeRatedWith_eq p _ _)
  case decModel => exact framed _ _ (fun _ => rfl) fun p => writes_of (decodeModelWith_eq p _)
  case decTime => exact framed _ _ (fun _ => rfl) fun p => writes_of (decodeTime_eq p)

end Sys2Proof.Machine
end

