-- ==== Sys2Proof/Laws/Operands.lean ====
section
/-! SUPPORT. Facts about the byte-string notation of 00_scope.md R7 and the tests of the overlays' number fields, as the statements write
them. -/

namespace Sys2Proof.Machine

/-! ## Digits and numbers -/

theorem isDigit_iff {b : Byte} : isDigit b = true ↔ 0x30 ≤ b.toNat ∧ b.toNat ≤ 0x39 := by simp [isDigit]

theorem digVal_le {b : Byte} (h : isDigit b = true) : digVal b ≤ 9 := by
  have := isDigit_iff.1 h
  simp only [digVal]
  omega

theorem allDigits_eq_false {s : ByteString} : allDigits s = false ↔ ∃ b ∈ s, isDigit b = false := by simp [allDigits]

theorem allDigits_append {s t : ByteString} : allDigits (s ++ t) = (allDigits s && allDigits t) := by simp [allDigits]

theorem allDigits_takeWhile (s : ByteString) : allDigits (s.takeWhile isDigit) = true := by
  simp only [allDigits, List.all_eq_true]
  exact fun _ h => List.mem_takeWhile_imp h

/-- `num` from a value on: the digits read so far count for one digit more each. -/
theorem num_foldl_lt {s : ByteString} (h : allDigits s = true) (n : Nat) :
    s.foldl (fun n b => 10 * n + digVal b) n < (n + 1) * 10 ^ s.length := by
  induction s generalizing n with
  | nil => simp
  | cons b s ih =>
    simp only [allDigits, List.all_cons, Bool.and_eq_true] at h
    have hd := digVal_le h.1
    refine lt_of_lt_of_le (ih h.2 _) ?_
    simp only [List.length_cons, pow_succ]
    rw [mul_comm (10 ^ _) 10, ← mul_assoc]
    exact Nat.mul_le_mul_right _ (by omega)

theorem num_lt {s : ByteString} (h : allDigits s = true) : num s < 10 ^ s.length := by
  simpa [num] using num_foldl_lt h 0

/-! ## Slices -/

@[simp] theorem slice_zero (s : ByteString) (n : Nat) : slice s 0 n = s.take n := by simp [slice]

theorem slice_append (a b c : ByteString) : slice (a ++ b ++ c) a.length (a.length + b.length) = b := by
  simp [slice, List.drop_take]

theorem allDigits_slice {s : ByteString} {n : Nat} (h : allDigits (s.take n) = true) {a b : Nat} (hb : b ≤ n) :
    allDigits (slice s a b) = true := by
  simp only [allDigits, List.all_eq_true, slice] at *
  exact fun x hx => h x (List.take_subset_take_left s hb (List.mem_of_mem_drop hx))

theorem num_slice_lt {s : ByteString} {n : Nat} (h : allDigits (s.take n) = true) {a b : Nat} (hb : b ≤ n) :
    num (slice s a b) < 10 ^ (b - a) := by
  refine lt_of_lt_of_le (num_lt (allDigits_slice h hb)) (Nat.pow_le_pow_right (by omega) ?_)
  rw [slice_length]
  omega

theorem fieldSlices_length (off : Nat) (f : List ByteString) : (fieldSlices off f).length = f.length := by
  induction f generalizing off with
  | nil => rfl
  | cons g f ih => simp [fieldSlices, ih]

/-! ## The number fields of the overlays -/

theorem gsField_eq (missing : GsEntry → List ByteString → Option ByteString) (f : List ByteString) (e : GsEntry) :
    gsField missing f e = if e.index < f.length then some (f.getD e.index []) else missing e f := rfl

theorem gsEntryFails_iff (missing : GsEntry → List ByteString → Option ByteString) (f : List ByteString) (e : GsEntry) :
    gsEntryFails missing f e = true ↔
      (e.kind = .int ∨ e.kind = .tenth) ∧ ∃ g, gsField missing f e = some g ∧ numField g = none := by
  unfold gsEntryFails
  cases gsField missing f e with
  | none => simp
  | some g => cases e.kind <;> simp [gsNumeric]

theorem gsFieldFails_iff (m : List GsEntry) (missing : GsEntry → List ByteString → Option ByteString) (f : List ByteString) :
    gsFieldFails m missing f = true ↔
      ∃ e ∈ m, (e.kind = .int ∨ e.kind = .tenth) ∧ ∃ g, gsField missing f e = some g ∧ numField g = none := by
  simp only [gsFieldFails, List.any_eq_true, gsEntryFails_iff]

theorem ratedFieldFails_iff (m : List RatedEntry) (f : List ByteString) :
    ratedFieldFails m f = true ↔ ∃ e ∈ m, e.index < 25 ∧ e.index < f.length ∧ (e.kind = .int ∨ e.kind = .tenth) ∧
      numField (f.getD e.index []) = none := by
  simp only [ratedFieldFails, ratedAdmitted, List.any_filter, List.any_eq_true, Bool.and_eq_true, decide_eq_true_eq,
    Option.isNone_iff_eq_none, fieldAt, and_assoc]
  refine exists_congr fun e => and_congr_right fun _ => and_congr_right fun _ => and_congr_right fun _ =>
    and_congr_left fun _ => ?_
  cases e.kind <;> simp [ratedNumeric]

end Sys2Proof.Machine
end

