-- ==== Sys2Proof/Laws/PerInstr.lean ====
section
/-! SUPPORT. A fact about every operation as syntax, one lemma per constructor: its op word matches the row of the opcode table that it
stands for, in that row's own numbers. -/

namespace Sys2Proof.Laws

/-- The mask of an operation's row in spec/opcode_table.json: the bits that the row fixes. -/
def rowMask : Instr → OpWord
  | .nop => 0xFFFF#16
  | .reset => 0xFFFF#16
  | .crcInit => 0xFFFF#16
  | .crcByte _ => 0xFF00#16
  | .crcBit _ => 0xFFFE#16
  | .cmdClear => 0xFFFF#16
  | .cmdPush _ => 0xFF00#16
  | .txStart _ => 0xFF00#16
  | .txPop => 0xFFFF#16
  | .rxClear => 0xFFFF#16
  | .rxByte _ => 0xFF00#16
  | .rxTimeout => 0xFFFF#16
  | .validate => 0xFFFF#16
  | .extract => 0xFFFF#16
  | .ackCheck => 0xFFFF#16
  | .decProtocolId => 0xFFFF#16
  | .decStatus => 0xFFFF#16
  | .decMode => 0xFFFF#16
  | .decFault => 0xFFFF#16
  | .decSerial => 0xFFFF#16
  | .decFirmware => 0xFFFF#16
  | .decRated => 0xFFFF#16
  | .decModel => 0xFFFF#16
  | .decTime => 0xFFFF#16
  | .decSchedule => 0xFFFF#16
  | .decEnergy => 0xFFFF#16

/-- The match value of an operation's row in spec/opcode_table.json. -/
def rowMatch : Instr → OpWord
  | .nop => 0x0000#16
  | .reset => 0x0100#16
  | .crcInit => 0x1000#16
  | .crcByte _ => 0x1100#16
  | .crcBit _ => 0x1200#16
  | .cmdClear => 0x2000#16
  | .cmdPush _ => 0x2100#16
  | .txStart _ => 0x2200#16
  | .txPop => 0x2300#16
  | .rxClear => 0x3000#16
  | .rxByte _ => 0x3100#16
  | .rxTimeout => 0x3200#16
  | .validate => 0x4000#16
  | .extract => 0x4100#16
  | .ackCheck => 0x4200#16
  | .decProtocolId => 0x5000#16
  | .decStatus => 0x5100#16
  | .decMode => 0x5200#16
  | .decFault => 0x5300#16
  | .decSerial => 0x5400#16
  | .decFirmware => 0x5500#16
  | .decRated => 0x5600#16
  | .decModel => 0x5700#16
  | .decTime => 0x5800#16
  | .decSchedule => 0x5900#16
  | .decEnergy => 0x5A00#16

namespace EncodesInTable

/-- A well-formed operation's word matches its row. -/
def Statement (i : Instr) : Prop := i.wellFormed = true → encode i &&& rowMask i = rowMatch i

/-- An operand byte is outside the mask of a row that fixes the opcode alone. -/
theorem opcode_byte (op b : Byte) : (op ++ b) &&& 0xFF00#16 = op ++ 0x00#8 := by
  ext k hk
  simp only [BitVec.getElem_and, BitVec.getElem_append]
  interval_cases k <;> simp

/-- The one operand bit is outside the mask of a row that fixes all others. -/
theorem opcode_bit (op b : Byte) (h : b.extractLsb' 1 7 = 0#7) : (op ++ b) &&& 0xFFFE#16 = op ++ 0x00#8 := by
  have hb : b = 0x00#8 ∨ b = 0x01#8 := by
    revert h
    revert b
    decide
  rcases hb with rfl | rfl <;>
    · ext k hk
      simp only [BitVec.getElem_and, BitVec.getElem_append]
      interval_cases k <;> simp

theorem nop : Statement .nop := fun _ => by decide

theorem reset : Statement .reset := fun _ => by decide

theorem crcInit : Statement .crcInit := fun _ => by decide

theorem crcByte (b : Byte) : Statement (.crcByte b) := fun _ =>
  (opcode_byte 0x11#8 b).trans (by decide : 0x11#8 ++ 0x00#8 = 0x1100#16)

theorem crcBit (d : Byte) : Statement (.crcBit d) := fun h =>
  (opcode_bit 0x12#8 d (by simpa [Instr.wellFormed] using h)).trans (by decide : 0x12#8 ++ 0x00#8 = 0x1200#16)

theorem cmdClear : Statement .cmdClear := fun _ => by decide

theorem cmdPush (b : Byte) : Statement (.cmdPush b) := fun _ =>
  (opcode_byte 0x21#8 b).trans (by decide : 0x21#8 ++ 0x00#8 = 0x2100#16)

theorem txStart (b : Byte) : Statement (.txStart b) := fun _ =>
  (opcode_byte 0x22#8 b).trans (by decide : 0x22#8 ++ 0x00#8 = 0x2200#16)

theorem txPop : Statement .txPop := fun _ => by decide

theorem rxClear : Statement .rxClear := fun _ => by decide

theorem rxByte (b : Byte) : Statement (.rxByte b) := fun _ =>
  (opcode_byte 0x31#8 b).trans (by decide : 0x31#8 ++ 0x00#8 = 0x3100#16)

theorem rxTimeout : Statement .rxTimeout := fun _ => by decide

theorem validate : Statement .validate := fun _ => by decide

theorem extract : Statement .extract := fun _ => by decide

theorem ackCheck : Statement .ackCheck := fun _ => by decide

theorem decProtocolId : Statement .decProtocolId := fun _ => by decide

theorem decStatus : Statement .decStatus := fun _ => by decide

theorem decMode : Statement .decMode := fun _ => by decide

theorem decFault : Statement .decFault := fun _ => by decide

theorem decSerial : Statement .decSerial := fun _ => by decide

theorem decFirmware : Statement .decFirmware := fun _ => by decide

theorem decRated : Statement .decRated := fun _ => by decide

theorem decModel : Statement .decModel := fun _ => by decide

theorem decTime : Statement .decTime := fun _ => by decide

theorem decSchedule : Statement .decSchedule := fun _ => by decide

theorem decEnergy : Statement .decEnergy := fun _ => by decide

end EncodesInTable

end Sys2Proof.Laws
end

