-- ==== Sys2Proof/Laws/Units.lean ====
section
/-! SUPPORT. What the shared operations of the frame builder and the capture unit do, said once. -/

namespace Sys2Proof.Machine

/-! ## The frame builder -/

theorem isMarker_iff {m : Byte} : isMarker m = true ↔ m ∈ [0x50#8, 0x53#8, 0x44#8] := by
  simp [isMarker, Config.markRequest, Config.markWrite, Config.markData, or_assoc]

@[simp] theorem digit_eq (n : Nat) : digit n = BitVec.ofNat 8 (0x30 + n) := rfl

@[simp] theorem dec3_length (n : Nat) : (dec3 n).length = 3 := rfl

@[simp] theorem frameHead_length (m : Byte) (c : ByteString) : (frameHead m c).length = c.length + 5 := by
  simp [frameHead]
  omega

@[simp] theorem crcResult_eq (c : U16) : crcResult c = c := by simp [crcResult, Config.crcXorOut]

theorem crc16_eq (s : ByteString) : crc16 s = s.foldl crcByte 0xFFFF#16 := crcResult_eq _

/-- A byte that the CRC covers, as an update of the state. -/
theorem emitCovered_eq (b : Byte) (p : TxPhase) (s : State) :
    emitCovered b p s = { s with
      txOut := b, txStream := s.txStream ++ [b], crc := crcByte s.crc b, txPhase := p, err := .none, errInfo := .none } := rfl

/-- A byte of the trailer, as an update of the state. -/
theorem emitTrailer_eq (b : Byte) (p : TxPhase) (s : State) :
    emitTrailer b p s = { s with
      txOut := b, txStream := s.txStream ++ [b], txPhase := p, err := .none, errInfo := .none } := rfl

/-- The command byte that phase `BODY` emits, as an update of the state. -/
theorem popBody_eq {s : State} (h : s.txIdx < 996) :
    popBody s = .next { s with
      txOut := Memory.read s.cmd s.txIdx, txStream := s.txStream ++ [Memory.read s.cmd s.txIdx],
      crc := crcByte s.crc (Memory.read s.cmd s.txIdx), txIdx := s.txIdx + 1,
      txPhase := if s.txIdx + 1 = s.cmdLen then .crch else .body, err := .none, errInfo := .none } := by
  rw [popBody, Config.cmdMax, if_pos h]
  rfl

/-! ## The capture unit -/

/-- A stored byte, as an update of the state. -/
theorem storeByte_eq (b : Byte) (s : State) :
    storeByte b s = { s with
      rx := Memory.write s.rx s.rxLen b, rxLen := s.rxLen + 1,
      rxState := if b = 0x0D#8 ∨ s.rxLen + 1 = 1000 then .done else s.rxState,
      rxEnd := if b = 0x0D#8 then .term else if s.rxLen + 1 = 1000 then .overflow else s.rxEnd } := by
  simp only [storeByte, Config.terminator, Config.rxMax]
  by_cases h1 : b = 0x0D#8
  · simp [h1]
  · by_cases h2 : s.rxLen + 1 = 1000 <;> simp [h1, h2]

end Sys2Proof.Machine
end

