-- ==== Sys2Proof/Tests/Slice0.lean ====
section
/-! SUPPORT. Tests: op words and values from the vectors of 95_test_vectors.md (its ids V-… and X… stand in the docstrings),
    and for
every statement with hypotheses a witness that meets them, at the boundary of each clause. -/

namespace Sys2Proof.Machine.Tests

/-! ## Helpers -/

/-- The state that a result answers. -/
def answered : Result → Option State
  | .next t => some t
  | .fault _ => none
  | .refused _ => none

/-- One field of the state that a result answers. -/
def after {α : Type} (r : Result) (f : State → α) : Option α := (answered r).map f

/-- A buffer that holds a byte string from index 0 on. -/
def held (bs : ByteString) : Memory := bs.zipIdx.foldl (fun m x => Memory.write m x.2 x.1) []

/-- A state with a captured Response, ended by the terminator. -/
def withRaw (raw : ByteString) : State :=
  { State.reset with rx := held raw, rxLen := raw.length, rxState := .done, rxEnd := .term }

/-- A captured data frame with a payload. -/
def withData (p : ByteString) : State := withRaw (buildFrame 0x44#8 p)

/-- The outcome of a result: the error class, its detail and the log. -/
def outcome (r : Result) : Option (ErrClass × Detail × List DiagEntry) := after r fun t => (t.err, t.errInfo, t.diag)

/-- The number of fields and the overlay of a status record. -/
def statusOf (s : State) : Option (Nat × List (ByteString × GsValue)) :=
  match s.record.fields with
  | .status n _ o => some (n, o)
  | _ => none

/-- The number of fields, the code and the flags of a fault record. -/
def faultOf (s : State) : Option (Nat × Option Nat × List Bool) :=
  match s.record.fields with
  | .fault n _ code flags => some (n, code, flags)
  | _ => none

/-- The number of fields and the overlay of a rated record. -/
def ratedOf (s : State) : Option (Nat × List (ByteString × RatedValue)) :=
  match s.record.fields with
  | .rated n _ o => some (n, o)
  | _ => none

/-- What a decoder wrote to the record. -/
def recordOf (r : Result) : Option Record := after r fun t => t.record

/-! ## Byte strings of the vectors -/

/-- V-ACK-1. -/
def ack : ByteString :=
    [0x5E#8, 0x31#8, 0x04#8, 0xF8#8, 0x0D#8]

/-- V-FB-8, V-EXT-2. -/
def data5 : ByteString :=
    [0x5E#8, 0x44#8, 0x30#8, 0x30#8, 0x38#8, 0x31#8, 0x32#8, 0x33#8, 0x34#8, 0x35#8, 0xBB#8, 0x73#8, 0x0D#8]

/-- V-FB-9, V-EXT-1. -/
def emptyData : ByteString :=
    [0x5E#8, 0x44#8, 0x30#8, 0x30#8, 0x33#8, 0x27#8, 0xCD#8, 0x0D#8]

/-- V-VAL-8. -/
def echo : ByteString :=
    [0x5E#8, 0x50#8, 0x30#8, 0x30#8, 0x35#8, 0x50#8, 0x49#8]

/-- The payload of V-DEC-ST-1. -/
def statusPayload : ByteString :=
    [0x32#8, 0x33#8, 0x30#8, 0x30#8, 0x2C#8, 0x35#8, 0x30#8, 0x30#8, 0x2C#8, 0x32#8, 0x33#8, 0x30#8, 0x30#8, 0x2C#8] ++
    [0x35#8, 0x30#8, 0x30#8, 0x2C#8, 0x30#8, 0x34#8, 0x36#8, 0x30#8, 0x2C#8, 0x30#8, 0x33#8, 0x36#8, 0x38#8, 0x2C#8] ++
    [0x30#8, 0x30#8, 0x39#8, 0x2C#8, 0x35#8, 0x31#8, 0x32#8, 0x2C#8, 0x35#8, 0x31#8, 0x32#8, 0x2C#8, 0x30#8, 0x30#8] ++
    [0x30#8, 0x2C#8, 0x30#8, 0x30#8, 0x30#8, 0x2C#8, 0x30#8, 0x31#8, 0x32#8, 0x2C#8, 0x30#8, 0x38#8, 0x37#8, 0x2C#8] ++
    [0x30#8, 0x33#8, 0x35#8, 0x2C#8, 0x30#8, 0x33#8, 0x30#8, 0x2C#8, 0x30#8, 0x30#8, 0x30#8, 0x2C#8, 0x30#8, 0x34#8] ++
    [0x31#8, 0x32#8, 0x2C#8, 0x30#8, 0x30#8, 0x30#8, 0x30#8, 0x2C#8, 0x31#8, 0x32#8, 0x30#8, 0x33#8, 0x2C#8, 0x30#8] ++
    [0x30#8, 0x30#8, 0x30#8, 0x2C#8, 0x30#8, 0x2C#8, 0x32#8, 0x2C#8, 0x30#8, 0x2C#8, 0x31#8, 0x2C#8, 0x31#8, 0x2C#8] ++
    [0x32#8, 0x2C#8, 0x31#8, 0x2C#8, 0x30#8]

/-- The payload of V-DEC-FA-2. -/
def faultPayload : ByteString :=
    [0x30#8, 0x32#8, 0x2C#8, 0x31#8, 0x2C#8, 0x30#8, 0x2C#8, 0x30#8, 0x2C#8, 0x30#8, 0x2C#8, 0x30#8, 0x2C#8, 0x30#8] ++
    [0x2C#8, 0x30#8, 0x2C#8, 0x30#8, 0x2C#8, 0x30#8, 0x2C#8, 0x30#8, 0x2C#8, 0x30#8, 0x2C#8, 0x30#8, 0x2C#8, 0x30#8] ++
    [0x2C#8, 0x30#8, 0x2C#8, 0x30#8, 0x2C#8, 0x31#8]

/-- The payload of V-DEC-FA-4. -/
def faultPayloadBad : ByteString :=
    [0x58#8, 0x58#8, 0x2C#8, 0x31#8, 0x2C#8, 0x30#8, 0x2C#8, 0x30#8, 0x2C#8, 0x30#8, 0x2C#8, 0x30#8, 0x2C#8, 0x30#8] ++
    [0x2C#8, 0x30#8, 0x2C#8, 0x30#8, 0x2C#8, 0x30#8, 0x2C#8, 0x30#8, 0x2C#8, 0x30#8, 0x2C#8, 0x30#8, 0x2C#8, 0x30#8] ++
    [0x2C#8, 0x30#8, 0x2C#8, 0x30#8, 0x2C#8, 0x31#8]

/-- The payload of V-DEC-FA-3. -/
def faultPayloadShort : ByteString :=
    [0x30#8, 0x32#8, 0x2C#8, 0x31#8, 0x2C#8, 0x30#8, 0x2C#8, 0x30#8, 0x2C#8, 0x30#8, 0x2C#8, 0x30#8, 0x2C#8, 0x30#8] ++
    [0x2C#8, 0x30#8, 0x2C#8, 0x30#8, 0x2C#8, 0x30#8, 0x2C#8, 0x30#8, 0x2C#8, 0x30#8, 0x2C#8, 0x30#8, 0x2C#8, 0x30#8] ++
    [0x2C#8, 0x30#8, 0x2C#8, 0x30#8]

/-- The payload of V-DEC-RA-3: 21 fields. -/
def ratedPayload : ByteString :=
    [0x32#8, 0x33#8, 0x30#8, 0x30#8, 0x2C#8, 0x32#8, 0x34#8, 0x33#8, 0x2C#8, 0x32#8, 0x33#8, 0x30#8, 0x30#8, 0x2C#8] ++
    [0x35#8, 0x30#8, 0x30#8, 0x2C#8, 0x32#8, 0x34#8, 0x33#8, 0x2C#8, 0x35#8, 0x36#8, 0x30#8, 0x30#8, 0x2C#8, 0x35#8] ++
    [0x36#8, 0x30#8, 0x30#8, 0x2C#8, 0x34#8, 0x38#8, 0x30#8, 0x2C#8, 0x35#8, 0x30#8, 0x30#8, 0x2C#8, 0x34#8, 0x37#8] ++
    [0x30#8, 0x2C#8, 0x35#8, 0x36#8, 0x34#8, 0x2C#8, 0x35#8, 0x34#8, 0x30#8, 0x2C#8, 0x32#8, 0x2C#8, 0x30#8, 0x33#8] ++
    [0x30#8, 0x2C#8, 0x30#8, 0x36#8, 0x30#8, 0x2C#8, 0x30#8, 0x2C#8, 0x32#8, 0x2C#8, 0x31#8, 0x2C#8, 0x39#8, 0x2C#8] ++
    [0x30#8, 0x2C#8, 0x30#8]

/-! ## Well-formed terms and op words (R60 to R63) -/

theorem test_wellFormed_refuses_a_crcBit_operand_above_one : (Instr.crcBit 0x02#8).wellFormed = false := by decide

theorem test_wellFormed_refuses_a_high_crcBit_operand : (Instr.crcBit 0x81#8).wellFormed = false := by decide

theorem test_wellFormed_takes_both_bits : (Instr.crcBit 0x00#8).wellFormed = true ∧ (Instr.crcBit 0x01#8).wellFormed =
    true := by
  decide

theorem test_wellFormed_takes_any_marker : (Instr.txStart 0x41#8).wellFormed = true := by decide

theorem test_decode_nop : decode 0x0000#16 = .ok .nop := rfl

theorem test_decode_reset : decode 0x0100#16 = .ok .reset := rfl

theorem test_decode_crcInit : decode 0x1000#16 = .ok .crcInit := rfl

theorem test_decode_crcByte : decode 0x115E#16 = .ok (.crcByte 0x5E#8) := rfl

theorem test_decode_crcBit : decode 0x1201#16 = .ok (.crcBit 0x01#8) := rfl

theorem test_decode_cmdClear : decode 0x2000#16 = .ok .cmdClear := rfl

theorem test_decode_cmdPush : decode 0x2143#16 = .ok (.cmdPush 0x43#8) := rfl

theorem test_decode_txStart : decode 0x2253#16 = .ok (.txStart 0x53#8) := rfl

theorem test_decode_txPop : decode 0x2300#16 = .ok .txPop := rfl

theorem test_decode_rxClear : decode 0x3000#16 = .ok .rxClear := rfl

theorem test_decode_rxByte : decode 0x310D#16 = .ok (.rxByte 0x0D#8) := rfl

theorem test_decode_rxTimeout : decode 0x3200#16 = .ok .rxTimeout := rfl

theorem test_decode_validate : decode 0x4000#16 = .ok .validate := rfl

theorem test_decode_extract : decode 0x4100#16 = .ok .extract := rfl

theorem test_decode_ackCheck : decode 0x4200#16 = .ok .ackCheck := rfl

theorem test_decode_decProtocolId : decode 0x5000#16 = .ok .decProtocolId := rfl

theorem test_decode_decStatus : decode 0x5100#16 = .ok .decStatus := rfl

theorem test_decode_decMode : decode 0x5200#16 = .ok .decMode := rfl

theorem test_decode_decFault : decode 0x5300#16 = .ok .decFault := rfl

theorem test_decode_decSerial : decode 0x5400#16 = .ok .decSerial := rfl

theorem test_decode_decFirmware : decode 0x5500#16 = .ok .decFirmware := rfl

theorem test_decode_decRated : decode 0x5600#16 = .ok .decRated := rfl

theorem test_decode_decModel : decode 0x5700#16 = .ok .decModel := rfl

theorem test_decode_decTime : decode 0x5800#16 = .ok .decTime := rfl

theorem test_decode_decSchedule : decode 0x5900#16 = .ok .decSchedule := rfl

theorem test_decode_decEnergy : decode 0x5A00#16 = .ok .decEnergy := rfl

theorem test_decode_rejects_an_unknown_opcode : decode 0x0200#16 = .error .unknownOpcode := rfl

theorem test_decode_rejects_the_opcode_after_the_last : decode 0x5B00#16 = .error .unknownOpcode := rfl

theorem test_decode_rejects_an_operand_where_there_is_none : decode 0x0001#16 = .error .operandNotZero := rfl

theorem test_decode_rejects_a_crcBit_operand : decode 0x1202#16 = .error .crcBitOperand := rfl

theorem test_decodeTableWord_reads_a_row : decodeTableWord 16 0x2250 = some (.txStart 0x50#8) := by decide

theorem test_encode_txStart : encode (.txStart 0x50#8) = 0x2250#16 := by decide

/-! ## The textual form (R77) -/

theorem test_assemble_a_character_operand :
    assembleLine ['T', 'X', '_', 'S', 'T', 'A', 'R', 'T', ' ', '\'', 'P', '\''] = some ⟨.host, 0x2250#16⟩ := by decide

theorem test_assemble_an_agent_prefix :
    assembleLine ['L', ':', ' ', 'R', 'X', '_', 'B', 'Y', 'T', 'E', ' ', '0', 'x', '0', 'D'] = some ⟨.line,
        0x310D#16⟩ := by decide

/-! ## Step and fetch -/

theorem test_fetched_word_runs : after (step (State.reset.withFetchWord 16 0x115E)) (fun t => (t.crc, t.inbox)) =
    some (0xB83E#16, []) := by decide

theorem test_reserved_word_reports : outcome (step (State.reset.withFetchWord 16 0x1202)) = some (.caller, .illegalOp,
    []) := by decide

/-! ## Control -/

theorem test_nop_keeps_the_outcome : outcome (exec .nop { State.reset with err := .caller, errInfo := .busy }) =
    some (.caller, .busy, []) := by decide

theorem test_reset_keeps_the_log :
    after (exec .reset { State.reset with crc := 0x1234#16, txPhase := .body, diag := [⟨.eProto, .vEmpty, 0x40#8⟩] })
      (fun t => (t.crc, t.txPhase, t.diag)) = some (0xFFFF#16, .idle, [⟨.eProto, .vEmpty, 0x40#8⟩]) := by decide

/-! ## The CRC unit -/

/-- V-CRC-S2, V-CRC-S3, V-CRC-S5. -/
theorem test_crcShift : crcShift 0x0001#16 = 0xA001#16 ∧ crcShift 0xFFFF#16 = 0xDFFE#16 ∧ crcShift 0x0002#16 =
    0x0001#16 := by decide

/-- V-CRC-9. -/
theorem test_crc16_check_value : crc16 ([0x31#8, 0x32#8, 0x33#8, 0x34#8, 0x35#8, 0x36#8, 0x37#8, 0x38#8, 0x39#8]) =
    0x4B37#16 := by decide +kernel

/-- V-CRC-11. -/
theorem test_crc16_request : crc16 ([0x5E#8, 0x50#8, 0x30#8, 0x30#8, 0x35#8, 0x50#8, 0x49#8]) = 0x690A#16 := by decide +kernel

theorem test_crcInit : after (exec .crcInit { State.reset with crc := 0x1234#16, err := .caller }) (fun t => (t.crc, t.err)) =
    some (0xFFFF#16, .none) := by decide

/-- V-CRC-6. -/
theorem test_crcByte : after (exec (.crcByte 0x50#8) { State.reset with crc := 0xB83E#16 }) (fun t => t.crc) =
    some 0xEC39#16 := by
  decide

/-- The refusal of 2.1. -/
theorem test_crcByte_while_busy : after (exec (.crcByte 0x00#8) { State.reset with txPhase := .m1 }) (fun t => (t.crc, t.err,
    t.errInfo)) =
    some (0xFFFF#16, .caller, .busy) := by decide

/-- V-CRC-B1, V-CRC-B2. -/
theorem test_crcBit : after (exec (.crcBit 0x00#8) State.reset) (fun t => t.crc) = some 0xDFFE#16 ∧
    after (exec (.crcBit 0x01#8) State.reset) (fun t => t.crc) = some 0x7FFF#16 := by decide

/-! ## The frame builder -/

/-- V-FB-1 (the source's X2). -/
theorem test_buildFrame_request : buildFrame 0x50#8 ([0x50#8, 0x49#8]) =
    [0x5E#8, 0x50#8, 0x30#8, 0x30#8, 0x35#8, 0x50#8, 0x49#8, 0x69#8, 0x0A#8, 0x0D#8] := by decide +kernel

/-- V-FB-2, the smallest frame. -/
theorem test_buildFrame_empty : buildFrame 0x50#8 [] = [0x5E#8, 0x50#8, 0x30#8, 0x30#8, 0x33#8, 0xD7#8, 0xC8#8,
    0x0D#8] := by decide +kernel

theorem test_cmdClear : after (exec .cmdClear { State.reset with cmdLen := 996, cmdOvf := true, cmdBad := true })
    (fun t => (t.cmdLen, t.cmdOvf, t.cmdBad)) = some (0, false, false) := by decide

/-- V-FB-E7. -/
theorem test_cmdPush_not_ascii : after (exec (.cmdPush 0xE9#8) State.reset) (fun t => (t.command, t.cmdLen, t.cmdBad, t.err)) =
    some ([0xE9#8], 1, true, .none) := by decide

/-- V-FB-E4. -/
theorem test_cmdPush_full : after (exec (.cmdPush 0x42#8) { State.reset with cmdLen := 996 })
    (fun t => (t.cmdLen, t.cmdOvf, t.cmd, t.err, t.errInfo)) = some (996, true, [], .caller, .cmdTooLong) := by decide

/-- V-FB-E9: the marker is checked before the command's flags, the length before the bytes. -/
theorem test_txStart_checks_in_order :
    outcome (exec (.txStart 0x00#8) { State.reset with cmdOvf := true, cmdBad := true }) = some (.caller, .badMarker, []) ∧
    outcome (exec (.txStart 0x50#8) { State.reset with cmdOvf := true, cmdBad := true }) = some (.caller, .cmdTooLong,
        []) := by decide

/-- V-FB-6: the start of the frame. -/
theorem test_txStart : after (exec (.txStart 0x53#8) { State.reset with crc := 0x0000#16, txIdx := 3, txStream := [0x5E#8] })
    (fun t => (t.txPhase, t.txMarker, t.crc, t.txIdx, t.txStream)) = some (.m0, 0x53#8, 0xFFFF#16, 0, []) := by decide

/-- V-FB-6, the row `BODY` that ends the command. -/
theorem test_txPop_last_command_byte :
    after (exec .txPop { State.reset with
      cmd := held ([0x43#8, 0x4C#8, 0x45#8]), cmdLen := 3, txPhase := .body, txIdx := 2, crc := 0x6937#16 })
      (fun t => (t.txOut, t.crc, t.txIdx, t.txPhase)) = some (0x45#8, 0x25E9#16, 3, .crch) := by decide

/-- V-FB-2: with an empty command the length field is followed by the CRC. -/
theorem test_txPop_empty_command : after (exec .txPop { State.reset with txPhase := .l0, crc := 0xC907#16 })
    (fun t => (t.txOut, t.crc, t.txPhase)) = some (0x33#8, 0xD7C8#16, .crch) := by decide

/-! ## The capture unit -/

/-- V-RX-12. -/
theorem test_rxClear : after (exec .rxClear { withRaw ack with ack := .accepted }) (fun t => (t.rxLen, t.rxState, t.rxEnd,
    t.ack)) =
    some (0, .capturing, .none, .none) := by decide

/-- V-RX-8: the terminator wins over the guard. -/
theorem test_rxByte_terminator_at_the_guard :
    after (exec (.rxByte 0x0D#8) { State.reset with rxState := .capturing, rxLen := 999 }) (fun t => (t.rxLen, t.rxState,
        t.rxEnd)) =
      some (1000, .done, .term) := by decide

/-- V-RX-7. -/
theorem test_rxByte_overflow :
    after (exec (.rxByte 0x41#8) { State.reset with rxState := .capturing, rxLen := 999 }) (fun t => (t.rxLen, t.rxEnd,
        t.diag)) =
      some (1000, .overflow, []) := by decide

/-- V-RX-9. -/
theorem test_rxTimeout_without_a_byte : outcome (exec .rxTimeout { State.reset with rxState := .capturing }) =
    some (.timeout, .noResponse, [⟨.eConn, .noResponse, 0x32#8⟩]) := by decide

/-- V-RX-10. -/
theorem test_rxTimeout_with_bytes :
    after (exec .rxTimeout { State.reset with rxState := .capturing, rxLen := 2 }) (fun t => (t.rxState, t.rxEnd, t.rxLen,
        t.err)) =
      some (.done, .timeout, 2, .none) := by decide

/-! ## The validator, the extractor, the acknowledgement -/

/-- X3 as the source writes it: the length field is 5, so the Response is too long. -/
theorem test_validate_literal_example :
    after (exec .validate (withRaw ([0x5E#8, 0x44#8, 0x30#8, 0x30#8, 0x35#8, 0x31#8, 0x32#8, 0x33#8, 0x34#8, 0x35#8, 0xBB#8,
        0x73#8, 0x0D#8]))) (fun t => (t.verdict, t.errInfo)) =
      some (⟨true, false, false, false, .length, 5, 10⟩, .vLength) := by decide

/-- V-EXT-4: the terminator removed. -/
theorem test_validate_without_terminator :
    after (exec .validate (withRaw ([0x5E#8, 0x44#8, 0x30#8, 0x30#8, 0x38#8, 0x31#8, 0x32#8, 0x33#8, 0x34#8, 0x35#8, 0xBB#8,
        0x73#8]))) (fun t => (t.verdict, t.diag, t.pay.valid)) =
      some (⟨true, true, true, true, .none, 8, 13⟩, [⟨.eProto, .wLengthSoft, 0x40#8⟩, ⟨.eProto, .wNoterm, 0x40#8⟩], false) := by
  decide

/-- V-EXT-1: an empty payload is no missing payload. -/
theorem test_extract_empty_payload : after (exec .extract (withRaw emptyData)) (fun t => (t.pay, t.err)) =
    some (⟨true, false, 5, 0, false⟩, .none) := by decide

/-- V-VAL-10: the warning stands before the error. -/
theorem test_extract_too_short : outcome (exec .extract (withRaw ([0x5E#8, 0x44#8, 0x30#8, 0x30#8, 0x30#8]))) =
    some (.protocol, .xShort, [⟨.eProto, .wNoterm, 0x41#8⟩, ⟨.eProto, .xShort, 0x41#8⟩]) := by decide

/-- V-ACK-2. -/
theorem test_ackCheck_accepts_two_bytes : after (exec .ackCheck (withRaw [0x5E#8, 0x31#8])) (fun t => (t.ack, t.err)) =
    some (.accepted, .none) := by decide

/-- V-ACK-7. -/
theorem test_ackCheck_refuses : after (exec .ackCheck (withRaw [0x31#8, 0x5E#8, 0x0D#8])) (fun t => (t.ack, t.err, t.errInfo,
    t.diag)) =
    some (.refused, .refused, .notAck, []) := by decide

/-! ## The decoders -/

/-- V-DEC-PI-1. -/
theorem test_decProtocolId : recordOf (exec .decProtocolId (withRaw ([0x5E#8, 0x44#8, 0x30#8, 0x30#8, 0x35#8, 0x31#8, 0x38#8,
    0xC9#8, 0xE0#8, 0x0D#8]))) =
    some ⟨.protocolId, false, false, .protocolId ⟨5, 2⟩⟩ := by decide

/-- V-DEC-PI-3. -/
theorem test_decProtocolId_without_a_payload :
    outcome (exec .decProtocolId (withRaw echo)) = some (.protocol, .vMarker, [⟨.eProto, .vMarker, 0x50#8⟩]) := by decide

/-- V-DEC-MO-7. -/
theorem test_decMode_unknown_code : recordOf (exec .decMode (withRaw ([0x5E#8, 0x44#8, 0x30#8, 0x30#8, 0x38#8, 0x4D#8,
    0x4F#8, 0x44#8, 0x2C#8, 0x37#8, 0xC6#8, 0x01#8, 0x0D#8]))) =
    some ⟨.mode, false, false, .mode 7 .unknown⟩ := by decide

/-- V-DEC-MO-9. -/
theorem test_decMode_wrong_prefix : outcome (exec .decMode (withRaw ([0x5E#8, 0x44#8, 0x30#8, 0x30#8, 0x38#8, 0x4D#8, 0x4F#8,
    0x58#8, 0x2C#8, 0x33#8, 0xC3#8, 0xC1#8, 0x0D#8]))) =
    some (.parse, .pFormat, [⟨.eParse, .pFormat, 0x52#8⟩]) := by decide

/-- The map of 93_implementation_defined.md G4 in part (PRESUMED, from general knowledge): grid voltage,
    the two MPPT codes and the
battery direction. The block's own `GS_MAP` is OPEN. -/
def candidateGsMap : List GsEntry :=
  [⟨[0x76#8], 0, .tenth⟩, ⟨[0x6D#8], 21, .mppt⟩, ⟨[0x6E#8], 22, .mppt⟩, ⟨[0x62#8], 24, .dir .battery⟩]

/-- V-DEC-ST-1 under that map: the source's X5 and X6. -/
theorem test_decStatus_overlay :
    statusOf (decodeStatusWith candidateGsMap (fun _ _ => [0x63#8]) (fun _ _ => none) statusPayload State.reset) =
      some (28, [([0x76#8], .tenth (some 2300)), ([0x6D#8], .mppt .charging), ([0x6E#8], .mppt .abnormal),
        ([0x62#8], .dir (.named [0x63#8]))]) := by decide +kernel

/-- V-DEC-ST-2: the first 27 fields. The payload has 27, and the null record holds none of them (R37). -/
theorem test_decStatus_short :
    outcome (.next (decodeStatusWith candidateGsMap (fun _ _ => []) (fun _ _ => none) (statusPayload.take 101) State.reset)) =
      some (.parse, .pShort, [⟨.eParse, .pShort, 0x51#8⟩]) ∧
    (decodeStatusWith candidateGsMap (fun _ _ => []) (fun _ _ => none) (statusPayload.take 101) State.reset).record =
      ⟨.status, true, false, .none⟩ ∧
    (payloadFields (statusPayload.take 101)).length = 27 := by decide +kernel

/-- R165 on the payload of V-EXT-2, one field: after a null record its number of fields can still be read off the Response. -/
theorem test_decStatus_payload_fields :
    after (exec .decStatus (withRaw data5)) (fun t => (t.record, t.payloadFieldCount)) =
      some (⟨.status, true, false, .none⟩, some 1) := by decide +kernel

/-- V-DEC-ST-4 under a map that names the 29th field (R166: every entry has its value), and the 28 fields of V-DEC-ST-1 with that field
read as no number (log 23). -/
theorem test_decStatus_index_28 :
    statusOf (decodeStatusWith [⟨[0x78#8], 28, .int⟩] (fun _ _ => []) (fun _ _ => none) (statusPayload ++ [0x2C#8, 0x39#8])
      State.reset) = some (29, [([0x78#8], .int (some 9))]) ∧
    outcome (.next (decodeStatusWith [⟨[0x78#8], 28, .int⟩] (fun _ _ => []) (fun _ _ => some []) statusPayload State.reset)) =
      some (.none, .none, [⟨.eParse, .pField, 0x51#8⟩]) := by decide +kernel

/-- V-DEC-FA-4. -/
theorem test_decFault_bad_code :
    outcome (.next (decodeFault faultPayloadBad State.reset)) = some (.parse, .pField, [⟨.eParse, .pField, 0x53#8⟩]) ∧
    (decodeFault faultPayloadBad State.reset).record.isPartial = true ∧
    faultOf (decodeFault faultPayloadBad State.reset) = some (17, none, [true] ++ List.replicate 14 false ++ [true]) := by
  decide +kernel

/-- V-DEC-FA-2, V-DEC-FA-3. -/
theorem test_decFault_code_and_short :
    faultOf (decodeFault faultPayload State.reset) = some (17, some 2, [true] ++ List.replicate 14 false ++ [true]) ∧
    outcome (.next (decodeFault faultPayloadShort State.reset)) = some (.parse, .pShort, [⟨.eParse, .pShort, 0x53#8⟩]) := by
  decide +kernel

/-- V-DEC-SN-2. -/
theorem test_decSerial_mismatch :
    after (exec .decSerial (withRaw ([0x5E#8, 0x44#8, 0x30#8, 0x30#8, 0x38#8, 0x32#8, 0x30#8, 0x41#8, 0x42#8, 0x43#8, 0x9E#8,
        0x31#8, 0x0D#8]))) (fun t => (t.record, t.err, t.diag)) =
      some (⟨.serial, false, true, .serial (some 20) ⟨5, 5⟩ false⟩, .none, [⟨.eParse, .pLengthMismatch, 0x54#8⟩]) := by decide

/-- V-DEC-SN-4. -/
theorem test_decSerial_declared_zero : recordOf (exec .decSerial (withRaw ([0x5E#8, 0x44#8, 0x30#8, 0x30#8, 0x35#8, 0x30#8,
    0x30#8, 0x9F#8, 0xE0#8, 0x0D#8]))) =
    some ⟨.serial, false, false, .serial (some 0) ⟨7, 0⟩ true⟩ := by decide

/-- V-DEC-FW-4. -/
theorem test_decFirmware_empty_strings : recordOf (exec .decFirmware (withRaw ([0x5E#8, 0x44#8, 0x30#8, 0x30#8, 0x35#8,
    0x2C#8, 0x2C#8, 0x96#8, 0xE9#8, 0x0D#8]))) =
    some ⟨.firmware, false, false, .firmware ⟨5, 0⟩ (some ⟨6, 0⟩) (some ⟨7, 0⟩)⟩ := by decide

/-- V-DEC-FW-3. -/
theorem test_decFirmware_one_string :
    after (exec .decFirmware (withRaw ([0x5E#8, 0x44#8, 0x30#8, 0x30#8, 0x38#8, 0x30#8, 0x30#8, 0x30#8, 0x32#8, 0x33#8,
        0x61#8, 0x3C#8, 0x0D#8]))) (fun t => (t.record, t.errInfo)) =
      some (⟨.firmware, false, true, .firmware ⟨5, 5⟩ none none⟩, .pShort) := by decide

/-- V-DEC-RA-3: 21 fields are enough. -/
theorem test_decRated_without_a_map :
    after (.next (decodeRatedWith [] (fun _ _ => none) ratedPayload State.reset)) (fun t => (t.record.isPartial, t.err)) =
      some (false, .none) := by decide

/-- For V-DEC-RA-4: a map with a number field and one that the payload lacks. -/
def smallRatedMap : List RatedEntry := [⟨[0x76#8], 0, .tenth⟩, ⟨[0x77#8], 20, .int⟩]

theorem test_decRated_short :
    outcome (.next (decodeRatedWith smallRatedMap (fun _ _ => none) (ratedPayload.take 71) State.reset)) =
      some (.parse, .pShort, [⟨.eParse, .pShort, 0x56#8⟩]) ∧
    ratedOf (decodeRatedWith smallRatedMap (fun _ _ => none) (ratedPayload.take 71) State.reset) =
      some (20, [([0x76#8], .tenth (some 2300)), ([0x77#8], .absent)]) := by decide +kernel

/-- V-DEC-MD-1, under the empty `MODEL_TABLE`. -/
theorem test_decModel_unknown :
    after (.next (decodeModelWith (fun _ => none) [0x30#8, 0x37#8] State.reset)) (fun t => (t.record, t.err)) =
      some (⟨.model, false, false, .model ⟨5, 2⟩ false unknownModel⟩, .none) := by decide

/-- V-DEC-MD-2. -/
theorem test_decModel_short : recordOf (exec .decModel (withRaw ([0x5E#8, 0x44#8, 0x30#8, 0x30#8, 0x34#8, 0x37#8, 0x73#8,
    0xA5#8, 0x0D#8]))) =
    some ⟨.model, true, false, .none⟩ := by decide

/-- V-DEC-TI-4: no calendar check. -/
theorem test_decTime_no_range_check : recordOf (.next (decodeTime ([0x32#8, 0x30#8, 0x32#8, 0x36#8, 0x31#8, 0x33#8, 0x39#8,
    0x39#8, 0x39#8, 0x39#8, 0x36#8, 0x31#8, 0x39#8, 0x39#8]) State.reset)) =
    some ⟨.time, false, false, .time 2026 13 99 99 61 99
      ([0x32#8, 0x30#8, 0x32#8, 0x36#8, 0x2D#8, 0x31#8, 0x33#8, 0x2D#8, 0x39#8, 0x39#8, 0x54#8, 0x39#8, 0x39#8,
          0x3A#8] ++ [0x36#8, 0x31#8, 0x3A#8, 0x39#8, 0x39#8])⟩ := by decide

/-- V-DEC-TI-2. -/
theorem test_decTime_short : outcome (.next (decodeTime ([0x32#8, 0x30#8, 0x32#8, 0x36#8, 0x31#8, 0x31#8, 0x31#8, 0x30#8,
    0x30#8, 0x39#8, 0x33#8, 0x30#8, 0x30#8]) State.reset)) =
    some (.parse, .pShort, [⟨.eParse, .pShort, 0x58#8⟩]) := by decide

/-- V-DEC-SC-1. -/
theorem test_decSchedule :
    recordOf (exec .decSchedule (withRaw ([0x5E#8, 0x44#8, 0x30#8, 0x31#8, 0x32#8, 0x30#8, 0x36#8, 0x30#8, 0x30#8, 0x31#8,
        0x38#8, 0x33#8, 0x30#8, 0x31#8] ++
    [0xE1#8, 0xA9#8, 0x0D#8]))) =
      some ⟨.schedule, false, false, .schedule 6 0 18 30 true false⟩ := by decide

/-- V-DEC-SC-4: no Response at all, and still no error. -/
theorem test_decSchedule_default :
    after (exec .decSchedule (withRaw [])) (fun t => (t.record, t.err, t.diag)) =
      some (⟨.schedule, false, false, .schedule 0 0 23 59 true true⟩, .none, [⟨.eProto, .vEmpty, 0x59#8⟩]) := by decide

/-- V-EN-1 (the source's X7). -/
theorem test_decEnergy : recordOf (exec .decEnergy (withRaw ([0x5E#8, 0x44#8, 0x30#8, 0x31#8, 0x31#8, 0x30#8, 0x32#8, 0x33#8,
    0x35#8, 0x38#8, 0x30#8, 0x32#8, 0x39#8]))) =
    some ⟨.energy, false, false, .energy 2358029 2358 29⟩ := by decide

/-- V-EN-10: the leftmost match is at the second letter. -/
theorem test_decEnergy_leftmost_match : recordOf (exec .decEnergy (withRaw ([0x78#8, 0x78#8, 0x44#8, 0x31#8, 0x32#8, 0x44#8,
    0x30#8, 0x31#8, 0x31#8, 0x35#8]))) =
    some ⟨.energy, false, false, .energy 5 0 5⟩ := by decide

/-! ## Witnesses: concrete states and operands that meet the hypotheses of the statements -/

/-- A state in which a frame is going out. -/
def busyState : State := { State.reset with txPhase := .m1 }

/-- A capture under way with `n` bytes stored. -/
def capturing (n : Nat) : State := { State.reset with rxState := .capturing, rxLen := n }

theorem witness_EncodedOperationDecodesToItself :
    (Instr.crcBit 0x00#8).wellFormed = true ∧ (Instr.crcBit 0x01#8).wellFormed = true ∧ (Instr.txStart 0xFF#8).wellFormed =
        true := by
  decide

theorem witness_DecodedWordEncodesBack : decode 0x1201#16 = .ok (.crcBit 0x01#8) ∧ decode 0x31FF#16 = .ok (.rxByte 0xFF#8) :=
  ⟨rfl, rfl⟩

theorem witness_ReservedWordsReportIllegalOp :
    reservedWord 0x0200#16 ∧ reservedWord 0xFF00#16 ∧ reservedWord 0x0001#16 ∧ reservedWord 0x5AFF#16 ∧
        reservedWord 0x1202#16 := by
  unfold reservedWord
  decide

theorem witness_StepRunsThePresentedOperation :
    (State.reset.withFetchWord 16 0x2250).inbox = ⟨.host, 0x2250#16⟩ :: [] ∧ decode 0x2250#16 = .ok (.txStart 0x50#8) ∧
    (State.reset.withFetchWord 16 0x1202).inbox = ⟨.host, 0x1202#16⟩ :: [] ∧ decode 0x1202#16 = .error .crcBitOperand :=
  ⟨rfl, rfl, rfl, rfl⟩

theorem witness_CrcInitSetsTheInitialValue : State.reset.txPhase = .idle ∧ busyState.txPhase ≠ .idle := by decide

theorem witness_CrcByteShiftsEightTimes : State.reset.txPhase = .idle ∧
    { State.reset with txPhase := .term }.txPhase ≠ .idle := by
  decide

theorem witness_CrcBitsMakeAByte :
    (Instr.crcBit 0x01#8).wellFormed = true ∧ State.reset.txPhase = .idle ∧ busyState.txPhase ≠ .idle := by decide

theorem witness_ChecksumSeesEverySingleBit : (0 < 8) ∧ (7 < 8) := by decide

theorem witness_CmdClearEmptiesTheCommand : State.reset.txPhase = .idle ∧ busyState.txPhase ≠ .idle := by decide

theorem witness_CmdPushAppendsTheByte : Memory.wf State.reset.cmd = true ∧ State.reset.txPhase = .idle ∧
    State.reset.cmdLen < 996 ∧
    { State.reset with cmdLen := 995 }.cmdLen < 996 ∧ 996 ≤ { State.reset with cmdLen := 996 }.cmdLen ∧
        busyState.txPhase ≠ .idle := by
  decide

theorem witness_TxPopOutsideTheBody : ∀ p : TxPhase, { State.reset with txPhase := p }.txPhase = p := fun _ => rfl

/-- A state in phase `BODY` at a command byte. -/
def bodyState (idx len : Nat) : State := { State.reset with txPhase := .body, txIdx := idx, cmdLen := len }

theorem witness_TxPopEmitsTheCommandByte :
    ((bodyState 0 1).txPhase = .body ∧ (bodyState 0 1).txIdx < (bodyState 0 1).cmdLen ∧ (bodyState 0 1).cmdLen ≤ 996) ∧
    ((bodyState 995 996).txPhase = .body ∧ (bodyState 995 996).txIdx < (bodyState 995 996).cmdLen ∧
      (bodyState 995 996).cmdLen ≤ 996) := by decide

/-- Eight `TX_POP`s with operations of the other agents between them: the smallest frame. -/
def interleaved : List Instr := [.txPop, .nop, .rxByte 0x41#8] ++ List.replicate 6 .txPop ++ [.rxTimeout, .decMode, .txPop]

theorem witness_FrameIsEmittedWhole :
    (State.reset.txPhase = .idle ∧ 0x50#8 ∈ [0x50#8, 0x53#8, 0x44#8] ∧ State.reset.cmdOvf = false ∧ State.reset.cmdBad = false ∧
      State.reset.cmdLen ≤ 996) ∧
    (∀ i ∈ interleaved, i = .txPop ∨ outsideBuilder i = true) ∧ interleaved.count .txPop = State.reset.cmdLen + 8 ∧
    (answered (runOps (.txStart 0x50#8 :: interleaved) State.reset)).isSome = true ∧
    (answered (runOps [.txStart 0x50#8, .txPop] State.reset)).isSome = true ∧
    interleaved = [] ++ .txPop :: interleaved.tail ∧ BuffersOk State.reset ∧ CaptureOk State.reset := by
  refine ⟨by decide, by decide, by decide, by decide +kernel, by decide, by decide, by constructor <;> decide, ?_⟩
  exact ⟨by decide, by decide, by decide, fun h => absurd h (by decide), by decide, by decide⟩

theorem witness_FrameLayout : ([] : ByteString).length ≤ 996 ∧ (List.replicate 996 0x41#8).length ≤ 996 :=
  ⟨by decide, List.length_replicate.le⟩

theorem witness_RxByteIsStoredOrDropped :
    ((capturing 0).rxState = .capturing ∧ (capturing 0).rxLen ≤ 999 ∧ Memory.wf (capturing 0).rx = true) ∧
    ((capturing 999).rxState = .capturing ∧ (capturing 999).rxLen ≤ 999 ∧ Memory.wf (capturing 999).rx = true) ∧
    State.reset.rxState ≠ .capturing := by decide

theorem witness_RxTimeoutEndsTheCapture :
    ((capturing 0).rxState = .capturing ∧ (capturing 0).rxLen = 0) ∧ ((capturing 1).rxState = .capturing ∧
        (capturing 1).rxLen ≠ 0) ∧
    (withRaw ack).rxState ≠ .capturing := by decide

theorem witness_CaptureHoldsTheLinesBytes : Memory.wf State.reset.rx = true ∧
    (0x0D#8 ∉ ([] : ByteString) ∧ ([] : ByteString).length ≤ 999) ∧
    (0x0D#8 ∉ List.replicate 999 0x41#8 ∧ (List.replicate 999 0x41#8).length ≤ 999) ∧
    (0x0D#8 ∉ List.replicate 1000 0x41#8 ∧ (List.replicate 1000 0x41#8).length = 1000) :=
  ⟨by decide, by decide, ⟨fun h => absurd (List.eq_of_mem_replicate h) (by decide), List.length_replicate.le⟩,
    fun h => absurd (List.eq_of_mem_replicate h) (by decide), List.length_replicate⟩

theorem witness_ResponseIsStable : (withRaw ack).rxState = .done ∧
    (∀ j ∈ [Instr.validate, .rxByte 0x41#8, .crcInit], j ≠ .rxClear ∧ j ≠ .reset) ∧
    ∃ t, runOps [.validate, .rxByte 0x41#8, .crcInit] (withRaw ack) = .next t ∧ needsResponse .ackCheck = true ∧
      ∃ s' t', exec .ackCheck (withRaw ack) = .next s' ∧ exec .ackCheck t = .next t' :=
  ⟨rfl, by decide, _, rfl, rfl, _, _, rfl, rfl⟩

theorem witness_OperationsNeedAResponse :
    needsResponse .validate = true ∧ needsResponse .decEnergy = true ∧ State.reset.rxState ≠ .done ∧
        (capturing 5).rxState ≠ .done := by
  decide

/-- Clauses in their order: empty, marker, length field (too short, no digit), length error 3 with tolerance 2, and 2. -/
theorem witness_ValidateFindsTheFirstFailure :
    (echo ≠ [] ∧ echo.take 2 ≠ [0x5E#8, 0x44#8]) ∧
    (([0x5E#8, 0x44#8, 0x30#8, 0x30#8] : ByteString).take 2 = [0x5E#8, 0x44#8] ∧
      ([0x5E#8, 0x44#8, 0x30#8, 0x30#8] : ByteString).length < 5) ∧
    (∃ b ∈ slice [0x5E#8, 0x44#8, 0x30#8, 0x20#8, 0x35#8] 2 5, isDigit b = false) ∧
    (data5.take 2 = [0x5E#8, 0x44#8] ∧ 5 ≤ data5.length ∧ ∀ b ∈ slice data5 2 5, isDigit b = true) ∧
    2 < (((data5.take 10).length : Int) - (5 + num (slice (data5.take 10) 2 5))).natAbs ∧
    (((data5.take 11).length : Int) - (5 + num (slice (data5.take 11) 2 5))).natAbs ≤ 2 := by decide

theorem witness_ValidateWritesTheVerdict :
    ((withRaw data5).rxState = .done ∧ (withRaw data5).rxLen ≤ 1000) ∧ State.reset.rxState ≠ .done ∧
        (validateAt 2 data5).ok = true ∧
    (validateAt 2 []).reason = .empty ∧ (validateAt 2 echo).reason = .marker ∧ (validateAt 2 (data5.take 4)).reason =
        .lenField ∧
    (validateAt 2 (data5.take 10)).reason = .length := by decide

/-- The clauses: invalid; trusted; not trusted with a payload; not trusted and too short, at the boundary V-VAL-10. -/
theorem witness_ExtractCutsThePayload :
    (validateAt 2 echo).ok = false ∧
    ((validateAt 2 data5).ok = true ∧ data5.length = 5 + (validateAt 2 data5).declared ∧ 3 ≤ (validateAt 2 data5).declared) ∧
    ((validateAt 2 (data5.take 12)).ok = true ∧ (data5.take 12).length ≠ 5 + (validateAt 2 (data5.take 12)).declared ∧
      5 + 2 ≤ (data5.take 12).length) ∧
    ((validateAt 2 [0x5E#8, 0x44#8, 0x30#8, 0x30#8, 0x30#8]).ok = true ∧
      ¬3 ≤ (validateAt 2 [0x5E#8, 0x44#8, 0x30#8, 0x30#8, 0x30#8]).declared) := by decide

theorem witness_ExtractWritesThePayload :
    ((withRaw data5).rxState = .done ∧ (withRaw data5).rxLen ≤ 1000) ∧ State.reset.rxState ≠ .done ∧
    (extractAt 2 .clean [0x5E#8, 0x44#8, 0x30#8, 0x30#8, 0x30#8] = none ∧
      (validateAt 2 [0x5E#8, 0x44#8, 0x30#8, 0x30#8, 0x30#8]).ok = true) ∧
    (extractAt 2 .clean echo = none ∧ (validateAt 2 echo).ok = false) ∧
    extractAt 2 .clean data5 = some ⟨5, false⟩ ∧ extractAt 2 .clean (data5.take 12) = some ⟨5, true⟩ := by decide

/-- The payload of V-FB-8 and the empty one: no early carriage return. -/
theorem witness_ExtractRecoversABuiltPayload :
    (([0x31#8, 0x32#8, 0x33#8, 0x34#8, 0x35#8] : ByteString).length ≤ 992 ∧ (∀ b ∈ [0x31#8, 0x32#8, 0x33#8, 0x34#8, 0x35#8],
        b.toNat < 0x80) ∧
      0x0D#8 ∉ (buildFrame 0x44#8 ([0x31#8, 0x32#8, 0x33#8, 0x34#8, 0x35#8])).dropLast ∧ Memory.wf State.reset.rx = true) ∧
    0x0D#8 ∉ (buildFrame 0x44#8 []).dropLast := by decide +kernel

theorem witness_DamagedFrameExtraction :
    ([0x31#8, 0x32#8, 0x33#8, 0x34#8, 0x35#8] : ByteString).length ≤ 996 ∧ ([0x5E#8, 0x44#8] ++ dec3 (5 + 3) =
        data5.take 5) ∧ 0xBB#8 ≠ 0x0D#8 ∧
    0x73#8 ≠ 0x0D#8 ∧ [0xBB#8, 0x0D#8] ∈ [[0xBB#8], [0xBB#8, 0x73#8], [0x0D#8], [0xBB#8, 0x0D#8]] ∧
    ([] : ByteString).length + 1 = [0x31#8].length ∧ [0x31#8, 0x32#8].length = [0x31#8].length + 1 := by decide

/-- V-EXT-13: wrong CRC bytes. -/
def data5WrongCrc : ByteString := [0x5E#8, 0x44#8, 0x30#8, 0x30#8, 0x38#8, 0x31#8, 0x32#8, 0x33#8, 0x34#8, 0x35#8, 0x00#8,
    0x00#8, 0x0D#8]

theorem witness_VerdictIgnoresTheCrc : data5WrongCrc.length = data5.length ∧ data5WrongCrc.take 5 = data5.take 5 ∧
    data5WrongCrc.getLast? = data5.getLast? := by decide

theorem witness_AckCheckReadsTwoBytes :
    ((withRaw ack).rxState = .done ∧ (withRaw ack).rxLen ≤ 1000) ∧ State.reset.rxState ≠ .done := by decide

theorem witness_DecodersWithoutAPayload : (Instr.decMode, RecTag.mode) ∈ payloadDecoders ∧
    ((withRaw echo).rxState = .done ∧ (withRaw echo).rxLen ≤ 1000 ∧ extractAt 2 .clean (withRaw echo).response = none) ∧
    ((withRaw emptyData).rxState = .done ∧ extractAt 2 .clean (withRaw emptyData).response = some ⟨0, false⟩) := by decide

/-- What every statement about a decoder on a payload assumes of the state. -/
def HasPayload (s : State) (c : Cut) : Prop :=
  s.rxState = .done ∧ s.rxLen ≤ 1000 ∧ extractAt 2 .clean s.response = some c ∧ 0 < c.len

theorem witness_DecProtocolIdTakesThePayload : HasPayload (withData [0x31#8, 0x38#8]) ⟨2, false⟩ := by
  unfold HasPayload
  decide +kernel

theorem witness_DecModeReadsTheDigit :
    HasPayload (withData ([0x30#8, 0x35#8])) ⟨2, false⟩ ∧ HasPayload (withData ([0x4D#8, 0x4F#8, 0x58#8, 0x2C#8,
        0x33#8])) ⟨5, false⟩ ∧
    HasPayload (withData ([0x4D#8, 0x4F#8, 0x44#8, 0x2C#8, 0x39#8])) ⟨5, false⟩ ∧
    ([0x4D#8, 0x4F#8, 0x58#8, 0x2C#8, 0x33#8] : ByteString).take 4 ≠ [0x4D#8, 0x4F#8, 0x44#8, 0x2C#8] ∧
        isDigit (byteAt ([0x4D#8, 0x4F#8, 0x44#8, 0x2C#8, 0x39#8]) 4) = true := by
  unfold HasPayload
  decide +kernel

/-- Sixteen fields; seventeen whose first is no number; seventeen with a code. -/
theorem witness_DecFaultReadsCodeAndFlags :
    (HasPayload (withData faultPayloadShort) ⟨32, false⟩ ∧ (split 0x2C#8 faultPayloadShort).length < 17) ∧
    (HasPayload (withData faultPayloadBad) ⟨34, false⟩ ∧ 17 ≤ (split 0x2C#8 faultPayloadBad).length ∧
      numField ((split 0x2C#8 faultPayloadBad).getD 0 []) = none) ∧
    (HasPayload (withData faultPayload) ⟨34, false⟩ ∧ 17 ≤ (split 0x2C#8 faultPayload).length ∧
      numField ((split 0x2C#8 faultPayload).getD 0 []) = some 2) := by
  unfold HasPayload
  decide +kernel

/-- The prefix met exactly, missed by one, and no prefix. -/
theorem witness_DecSerialChecksThePrefix :
    (HasPayload (withData ([0x30#8, 0x33#8, 0x41#8, 0x42#8, 0x43#8])) ⟨5, false⟩ ∧ allDigits (([0x30#8, 0x33#8, 0x41#8,
        0x42#8, 0x43#8] : ByteString).take 2) = true ∧
      2 + num (([0x30#8, 0x33#8, 0x41#8, 0x42#8, 0x43#8] : ByteString).take 2) ≤ 5) ∧
    (allDigits (([0x30#8, 0x34#8, 0x41#8, 0x42#8, 0x43#8] : ByteString).take 2) = true ∧ 5 < 2 + num (([0x30#8, 0x34#8,
        0x41#8, 0x42#8, 0x43#8] : ByteString).take 2)) ∧
    HasPayload (withData ([0x31#8])) ⟨1, false⟩ ∧ allDigits (([0x41#8, 0x42#8, 0x31#8, 0x32#8,
        0x33#8] : ByteString).take 2) = false := by
  unfold HasPayload
  decide +kernel

theorem witness_DecFirmwareReadsThreeStrings :
    (HasPayload (withData ([0x31#8, 0x2C#8, 0x2C#8, 0x33#8, 0x2C#8, 0x34#8])) ⟨6, false⟩ ∧
      split 0x2C#8 ([0x31#8, 0x2C#8, 0x2C#8, 0x33#8, 0x2C#8, 0x34#8]) = [0x31#8] :: [] :: [0x33#8] :: [[0x34#8]]) ∧
    (HasPayload (withData ([0x31#8, 0x2C#8, 0x32#8])) ⟨3, false⟩ ∧ split 0x2C#8 ([0x31#8, 0x2C#8, 0x32#8]) = [[0x31#8],
        [0x32#8]]) ∧
    (HasPayload (withData ([0x31#8])) ⟨1, false⟩ ∧ split 0x2C#8 ([0x31#8]) = [[0x31#8]]) := by
  unfold HasPayload
  decide +kernel

/-- Twenty-one fields and one. The overlay and the test of the number fields exist whatever `RATED_MAP` holds. -/
theorem witness_DecRatedDegradesToAPartialRecord :
    (HasPayload (withData ratedPayload) ⟨73, false⟩ ∧ 21 ≤ (split 0x2C#8 ratedPayload).length) ∧
    (HasPayload (withData [0x31#8]) ⟨1, false⟩ ∧ (split 0x2C#8 [0x31#8]).length < 21) ∧
    ∀ f : List ByteString, ∃ fails : Bool, fails = true ↔ ∃ e ∈ Config.ratedMap, e.index < 25 ∧ e.index < f.length ∧
      (e.kind = .int ∨ e.kind = .tenth) ∧ numField (f.getD e.index []) = none := by
  refine ⟨by unfold HasPayload; decide +kernel, by unfold HasPayload; decide +kernel,
      fun f => ⟨ratedFieldFails Config.ratedMap f, ?_⟩⟩
  exact ratedFieldFails_iff Config.ratedMap f

/-- Twenty-eight fields and twenty-seven. The overlay and the test of the number fields exist whatever `GS_MAP` holds. -/
theorem witness_DecStatusReadsTheFields :
    (HasPayload (withData statusPayload) ⟨103, false⟩ ∧ 28 ≤ (split 0x2C#8 statusPayload).length) ∧
    (HasPayload (withData (statusPayload.take 101)) ⟨101, false⟩ ∧ (split 0x2C#8 (statusPayload.take 101)).length < 28) ∧
    (∀ f : List ByteString, ∃ (fieldOf : GsEntry → Option ByteString) (fails : Bool),
      (∀ e, (e.index < f.length → fieldOf e = some (f.getD e.index [])) ∧
        (f.length ≤ e.index → fieldOf e = Config.gsMissing e f)) ∧
      (fails = true ↔ ∃ e ∈ Config.gsMap, (e.kind = .int ∨ e.kind = .tenth) ∧ ∃ g, fieldOf e = some g ∧ numField g = none)) ∧
    numField [0x30#8] = some 0 ∧ numField [0x31#8] = some 1 ∧ numField [0x32#8] = some 2 ∧ numField [0x33#8] = some 3 ∧
    numField [] = none := by
  refine ⟨by unfold HasPayload; decide +kernel, by unfold HasPayload; decide +kernel, fun f =>
    ⟨gsField Config.gsMissing f, gsFieldFails Config.gsMap Config.gsMissing f, fun e => ?_, ?_⟩, by decide⟩
  · rw [gsField_eq]
    exact ⟨fun h => if_pos h, fun h => if_neg (by omega)⟩
  · exact gsFieldFails_iff _ _ _

/-- One byte, two bytes, and the two cases of the table. -/
theorem witness_DecModelLooksUpTwoBytes :
    HasPayload (withData ([0x37#8])) ⟨1, false⟩ ∧ HasPayload (withData ([0x30#8, 0x37#8])) ⟨2, false⟩ ∧
    ((∃ name, Config.modelTable [0x30#8, 0x37#8] = some name) ∨ Config.modelTable [0x30#8, 0x37#8] = none) := by
  refine ⟨by unfold HasPayload; decide +kernel, by unfold HasPayload; decide +kernel, ?_⟩
  cases Config.modelTable [0x30#8, 0x37#8] with
  | none => exact .inr rfl
  | some name => exact .inl ⟨name, rfl⟩

/-- Thirteen bytes; fourteen with one that is no digit; fourteen digits and one byte more. -/
theorem witness_DecTimeReadsFourteenDigits :
    HasPayload (withData ([0x32#8, 0x30#8, 0x32#8, 0x36#8, 0x31#8, 0x31#8, 0x31#8, 0x30#8, 0x30#8, 0x39#8, 0x33#8, 0x30#8,
        0x30#8])) ⟨13, false⟩ ∧
    (HasPayload (withData ([0x32#8, 0x30#8, 0x32#8, 0x36#8, 0x2D#8, 0x31#8, 0x31#8, 0x2D#8, 0x31#8, 0x30#8, 0x20#8, 0x30#8,
        0x39#8, 0x3A#8])) ⟨14, false⟩ ∧
      ∃ b ∈ ([0x32#8, 0x30#8, 0x32#8, 0x36#8, 0x2D#8, 0x31#8, 0x31#8, 0x2D#8, 0x31#8, 0x30#8, 0x20#8, 0x30#8, 0x39#8,
          0x3A#8] : ByteString).take 14, isDigit b = false) ∧
    (HasPayload (withData ([0x32#8, 0x30#8, 0x32#8, 0x36#8, 0x31#8, 0x31#8, 0x31#8, 0x30#8, 0x30#8, 0x39#8, 0x33#8, 0x30#8,
        0x30#8, 0x35#8] ++ [0x58#8])) ⟨15, false⟩ ∧
      allDigits ([0x32#8, 0x30#8, 0x32#8, 0x36#8, 0x31#8, 0x31#8, 0x31#8, 0x30#8, 0x30#8, 0x39#8, 0x33#8, 0x30#8, 0x30#8,
          0x35#8]) = true) := by
  unfold HasPayload
  decide +kernel

/-- No Response; no payload; nine bytes well shaped; eight bytes; nine bytes with a last one that is neither digit. -/
theorem witness_DecScheduleNeverFails :
    State.reset.rxState ≠ .done ∧
    ((withRaw []).rxState = .done ∧ (withRaw []).rxLen ≤ 1000 ∧ extractAt 2 .clean (withRaw []).response = none) ∧
    (HasPayload (withData ([0x30#8, 0x36#8, 0x30#8, 0x30#8, 0x31#8, 0x38#8, 0x33#8, 0x30#8, 0x31#8])) ⟨9, false⟩ ∧
        allDigits ([0x30#8, 0x36#8, 0x30#8, 0x30#8, 0x31#8, 0x38#8, 0x33#8, 0x30#8]) = true) ∧
    HasPayload (withData ([0x30#8, 0x36#8, 0x30#8, 0x30#8, 0x31#8, 0x38#8, 0x33#8, 0x30#8])) ⟨8, false⟩ ∧
    (HasPayload (withData ([0x30#8, 0x36#8, 0x30#8, 0x30#8, 0x31#8, 0x38#8, 0x33#8, 0x30#8, 0x58#8])) ⟨9, false⟩ ∧
        byteAt ([0x30#8, 0x36#8, 0x30#8, 0x30#8, 0x31#8, 0x38#8, 0x33#8, 0x30#8, 0x58#8]) 8 ≠ 0x30#8 ∧
      byteAt ([0x30#8, 0x36#8, 0x30#8, 0x30#8, 0x31#8, 0x38#8, 0x33#8, 0x30#8, 0x58#8]) 8 ≠ 0x31#8) := by
  unfold HasPayload
  decide +kernel

/-- Where a match of V-EN-10 stands, and where none stands in V-EN-6. -/
theorem witness_DecEnergyReadsTheDigitRun : State.reset.rxState ≠ .done ∧
    ((withRaw ([0x78#8, 0x78#8, 0x44#8, 0x31#8, 0x32#8, 0x44#8, 0x30#8, 0x31#8, 0x31#8, 0x35#8])).rxState = .done ∧
        (withRaw ([0x78#8, 0x78#8, 0x44#8, 0x31#8, 0x32#8, 0x44#8, 0x30#8, 0x31#8, 0x31#8, 0x35#8])).rxLen ≤ 1000 ∧
      (withRaw ([0x78#8, 0x78#8, 0x44#8, 0x31#8, 0x32#8, 0x44#8, 0x30#8, 0x31#8, 0x31#8, 0x35#8])).response.filter isAlnum =
          [0x78#8, 0x78#8, 0x44#8, 0x31#8, 0x32#8, 0x44#8, 0x30#8, 0x31#8, 0x31#8, 0x35#8]) ∧
    (5 + 4 < ([0x78#8, 0x78#8, 0x44#8, 0x31#8, 0x32#8, 0x44#8, 0x30#8, 0x31#8, 0x31#8, 0x35#8] : ByteString).length ∧
      allDigits (slice ([0x78#8, 0x78#8, 0x44#8, 0x31#8, 0x32#8, 0x44#8, 0x30#8, 0x31#8, 0x31#8, 0x35#8]) 6 10) = true ∧
      allDigits (slice ([0x78#8, 0x78#8, 0x44#8, 0x31#8, 0x32#8, 0x44#8, 0x30#8, 0x31#8, 0x31#8, 0x35#8]) 3 7) = false ∧
          allDigits [0x35#8] = true) ∧
    ∀ i, ¬(i + 4 < ([0x44#8, 0x30#8, 0x31#8, 0x31#8] : ByteString).length) := by
  refine ⟨by decide, by decide, by decide, fun i h => ?_⟩
  simp at h

theorem witness_FieldSlicesNameTheFields : split 0x2C#8 [0x31#8, 0x2C#8] = [[0x31#8], []] := by decide

/-- A state that holds a judged acknowledgement, a command and a record, with a word presented. -/
def livelyState : State :=
  { withRaw ack with
    cmd := held [0x41#8], cmdLen := 1, ack := .accepted, verdict := (validate ack).regs, inbox := [⟨.host, 0x5A00#16⟩] }

theorem lively_buffers : BuffersOk livelyState := by constructor <;> decide

theorem lively_builder : BuilderOk livelyState where
  marker := by decide
  bad := by decide
  ovf := by decide
  clean := by decide
  index := by
    change (0 : Nat) ≤ 996
    decide
  stream := by decide
  checksum := by decide

theorem lively_capture : CaptureOk livelyState where
  idle := by decide
  capturing := by decide
  done := by decide
  term := fun _ _ => ⟨ack.dropLast, by decide, by decide⟩
  overflow := by decide
  timeout := by decide

theorem lively_verdict : VerdictOk livelyState := by constructor <;> decide

theorem lively_record : RecordOk livelyState where
  absent := by decide
  held := by decide
  shape := by decide
  null_shape := by decide
  texts := by decide
  range := trivial

theorem lively_steps : ∃ t, step livelyState = .next t := ⟨_, rfl⟩

theorem witness_StepKeepsTheBuffers : BuffersOk livelyState ∧ ∃ t, step livelyState = .next t := ⟨lively_buffers, lively_steps⟩

theorem witness_StepKeepsTheBuilder : BuffersOk livelyState ∧ BuilderOk livelyState ∧ ∃ t, step livelyState = .next t :=
  ⟨lively_buffers, lively_builder, lively_steps⟩

theorem witness_StepKeepsTheCapture : BuffersOk livelyState ∧ CaptureOk livelyState ∧ ∃ t, step livelyState = .next t :=
  ⟨lively_buffers, lively_capture, lively_steps⟩

theorem witness_StepKeepsTheVerdicts : VerdictOk livelyState ∧ ∃ t, step livelyState = .next t := ⟨lively_verdict, lively_steps⟩

theorem witness_StepKeepsTheRecord : BuffersOk livelyState ∧ RecordOk livelyState ∧ ∃ t, step livelyState = .next t :=
  ⟨lively_buffers, lively_record, lively_steps⟩

theorem witness_NoStepStops : BuffersOk livelyState ∧ BuilderOk livelyState ∧ CaptureOk livelyState :=
  ⟨lively_buffers, lively_builder, lively_capture⟩

theorem witness_OutcomesAreThoseOfTheTable : ∃ t, exec .decEnergy livelyState = .next t ∧ t.diag ≠ livelyState.diag :=
  ⟨_, rfl, by decide⟩

theorem witness_HostOperationsWriteTheOutcome : writesOutcome .reset = true ∧ writesOutcome .decEnergy = true ∧
    (∃ t, exec (.rxByte 0x41#8) livelyState = .next t) ∧ ∃ t, exec .nop livelyState = .next t :=
  ⟨rfl, rfl, ⟨_, rfl⟩, _, rfl⟩

theorem witness_OnlyPushAndByteWriteTheBuffers : (∃ t, exec .reset livelyState = .next t) ∧
    (∀ b, Instr.reset ≠ .cmdPush b) ∧ ∀ b, Instr.reset ≠ .rxByte b := ⟨⟨_, rfl⟩, nofun, nofun⟩

theorem witness_OperationsLeaveTheInboxAlone : State.reset.inbox = [] ∧ livelyState.inbox ≠ [] := by decide

/-- Another state that differs above the lengths in both buffers. -/
def otherAbove : State := { livelyState with cmd := held [0x41#8, 0x42#8], rx := held (ack ++ [0x41#8]) }

theorem witness_BytesAboveTheLengthAreUnobservable :
    (Memory.wf livelyState.cmd = true ∧ Memory.wf livelyState.rx = true ∧ Memory.wf otherAbove.cmd = true ∧
      Memory.wf otherAbove.rx = true) ∧
    (livelyState.txPhase = .body → livelyState.txIdx < livelyState.cmdLen) ∧ SameBelowLengths livelyState otherAbove ∧
    ∃ t, exec (.cmdPush 0x43#8) livelyState = .next t :=
  ⟨by decide, by decide, ⟨rfl, by decide, by decide⟩, _, rfl⟩

end Sys2Proof.Machine.Tests
end

/-! The scope of the block (00_scope.md): the step and the word presented next (R6), the words not yet presented, and the byte-string
function `split` (R7). -/

section
namespace Sys2Proof

/-! ## The decoder answers well-formed operations (R62) -/

/-- An answer of the decoder that is a well-formed operation or a reserved word. -/
def AnswersWellFormed (r : Except Reserved Instr) : Prop := ∀ i, r = .ok i → i.wellFormed = true

theorem AnswersWellFormed.ite {c : Prop} [Decidable c] {r r' : Except Reserved Instr} (h : AnswersWellFormed r)
    (h' : AnswersWellFormed r') : AnswersWellFormed (if c then r else r') := by
  split
  · exact h
  · exact h'

theorem AnswersWellFormed.ok {i : Instr} (h : i.wellFormed = true) : AnswersWellFormed (.ok i) := by
  rintro j ⟨⟩
  exact h

theorem AnswersWellFormed.error (r : Reserved) : AnswersWellFormed (.error r) := nofun

theorem noOperand_answersWellFormed (b : Byte) {i : Instr} (h : i.wellFormed = true) : AnswersWellFormed (noOperand b i) :=
  .ite (.ok h) (.error _)

/-- The check of the one operand that is restricted is the one `Instr.wellFormed` asks for. -/
theorem bitOperand_answersWellFormed (b : Byte) : AnswersWellFormed (bitOperand b) := by
  intro i h
  obtain ⟨hb, rfl⟩ := bitOperand_eq_ok.1 h
  simp [Instr.wellFormed, hb]

/-- Row by row of the opcode map (R61). -/
theorem decode_answersWellFormed (w : OpWord) : AnswersWellFormed (decode w) := by
  have bare {i : Instr} (h : i.wellFormed = true) : AnswersWellFormed (noOperand (immField w) i) :=
    noOperand_answersWellFormed _ h
  simp only [decode]
  exact .ite (bare rfl) <| .ite (bare rfl) <| .ite (bare rfl) <| .ite (.ok rfl) <| .ite (bitOperand_answersWellFormed _) <|
    .ite (bare rfl) <| .ite (.ok rfl) <| .ite (.ok rfl) <| .ite (bare rfl) <|
    .ite (bare rfl) <| .ite (.ok rfl) <| .ite (bare rfl) <|
    .ite (bare rfl) <| .ite (bare rfl) <| .ite (bare rfl) <|
    .ite (bare rfl) <| .ite (bare rfl) <| .ite (bare rfl) <| .ite (bare rfl) <| .ite (bare rfl) <| .ite (bare rfl) <|
    .ite (bare rfl) <| .ite (bare rfl) <| .ite (bare rfl) <| .ite (bare rfl) <| .ite (bare rfl) <| .error _

end Sys2Proof
end

section
namespace Sys2Proof.Machine

/-! ## The words not yet presented (log 1) -/

/-- The answer `r` with `ps` as the words not yet presented. -/
def putInbox (ps : List Presented) : Result → Result
  | .next t => .next { t with inbox := ps }
  | .fault r => .fault r
  | .refused r => .refused r

/-- A meaning that neither reads nor writes the words not yet presented. -/
def IgnoresInbox (k : State → Result) : Prop :=
  ∀ (s : State) (ps : List Presented), k { s with inbox := ps } = putInbox ps (k s)

/-- A choice by a condition on the other fields. -/
theorem IgnoresInbox.ite {c : State → Prop} [DecidablePred c] {k k' : State → Result}
    (hc : ∀ (s : State) (ps : List Presented), c { s with inbox := ps } ↔ c s) (hk : IgnoresInbox k) (hk' : IgnoresInbox k') :
    IgnoresInbox fun s => if c s then k s else k' s := by
  intro s ps
  by_cases h : c s
  · simp only [hc, h, if_true, hk s ps]
  · simp only [hc, h, if_false, hk' s ps]

theorem whenNotBusy_ignoresInbox {i : Instr} {k : State → Result} (hk : IgnoresInbox k) :
    IgnoresInbox fun s => whenNotBusy i s k :=
  .ite (fun _ _ => Iff.rfl) (fun _ _ => rfl) hk

theorem execCmdPush_ignoresInbox (b : Byte) : IgnoresInbox (execCmdPush b) :=
  whenNotBusy_ignoresInbox (.ite (fun _ _ => Iff.rfl) (fun _ _ => rfl) fun _ _ => rfl)

theorem execTxStart_ignoresInbox (m : Byte) : IgnoresInbox (execTxStart m) :=
  have refuse (d : Detail) : IgnoresInbox fun s => .next (callerError d (opcode (.txStart m)) s) := fun _ _ => rfl
  whenNotBusy_ignoresInbox <|
    .ite (fun _ _ => Iff.rfl) (refuse .badMarker) <| .ite (fun _ _ => Iff.rfl) (refuse .cmdTooLong) <|
      .ite (fun _ _ => Iff.rfl) (refuse .cmdNotAscii) fun _ _ => rfl

theorem popBody_ignoresInbox : IgnoresInbox popBody :=
  .ite (fun _ _ => Iff.rfl) (fun _ _ => rfl) fun _ _ => rfl

theorem execTxPop_ignoresInbox : IgnoresInbox execTxPop := by
  rintro ⟨crc, cmd, cmdLen, cmdOvf, cmdBad, phase⟩ ps
  cases phase with
  | body => exact popBody_ignoresInbox _ ps
  | _ => rfl

theorem storeByte_ignoresInbox (b : Byte) : IgnoresInbox fun s => .next (storeByte b s) := by
  intro s ps
  simp only [storeByte_eq, putInbox]

theorem execRxByte_ignoresInbox (b : Byte) : IgnoresInbox (execRxByte b) :=
  .ite (fun _ _ => Iff.rfl) (.ite (fun _ _ => Iff.rfl) (storeByte_ignoresInbox b) fun _ _ => rfl) fun _ _ => rfl

theorem execRxTimeout_ignoresInbox : IgnoresInbox execRxTimeout :=
  .ite (fun _ _ => Iff.rfl) (.ite (fun _ _ => Iff.rfl) (fun _ _ => rfl) fun _ _ => rfl) fun _ _ => rfl

/-- Every operation that needs a Response stands behind the guard of R126. -/
theorem exec_eq_withResponse {i : Instr} (hi : needsResponse i = true) :
    ∃ k : State → ByteString → Result, ∀ s, exec i s = withResponse i s (k s) := by
  cases i <;> simp only [needsResponse, Bool.false_eq_true] at hi
  all_goals
    simp only [exec, execValidate, execExtract, execAckCheck, execDecProtocolId, execDecStatus, execDecMode, execDecFault,
      execDecSerial, execDecFirmware, execDecRated, execDecModel, execDecTime, execDecSchedule, execDecEnergy, withPayload]
    exact ⟨_, fun _ => rfl⟩

theorem withResponse_too_long {i : Instr} {s : State} {k : ByteString → Result} (h : s.rxState = .done) (hl : ¬s.rxLen ≤ 1000) :
    withResponse i s k = .fault (.rxIndex s.rxLen) := by
  simp [withResponse, h, hl, Config.rxMax]

/-- The operations that need a Response: they write what the Response alone decides, or the guard answers. -/
theorem exec_ignoresInbox_of_needsResponse {i : Instr} (hi : needsResponse i = true) : IgnoresInbox (exec i) := by
  intro s ps
  by_cases hd : s.rxState = .done
  · by_cases hl : s.rxLen ≤ 1000
    · obtain ⟨v, p, a, r, e, d, new, -, -, -, h⟩ := exec_response i hi s.response
      rw [h s hd hl rfl, h { s with inbox := ps } hd hl rfl]
      rfl
    · obtain ⟨k, hk⟩ := exec_eq_withResponse hi
      rw [hk, hk, withResponse_too_long hd hl, withResponse_too_long (s := { s with inbox := ps }) hd hl]
      rfl
  · obtain ⟨k, hk⟩ := exec_eq_withResponse hi
    rw [hk, hk, withResponse_not_done hd, withResponse_not_done (s := { s with inbox := ps }) hd]
    rfl

/-- No operation reads or writes the words not yet presented. -/
theorem exec_ignoresInbox (i : Instr) : IgnoresInbox (exec i) := by
  cases i with
  | nop => exact fun _ _ => rfl
  | reset => exact fun _ _ => rfl
  | crcInit => exact whenNotBusy_ignoresInbox fun _ _ => rfl
  | crcByte b => exact whenNotBusy_ignoresInbox fun _ _ => rfl
  | crcBit d => exact whenNotBusy_ignoresInbox fun _ _ => rfl
  | cmdClear => exact whenNotBusy_ignoresInbox fun _ _ => rfl
  | cmdPush b => exact execCmdPush_ignoresInbox b
  | txStart m => exact execTxStart_ignoresInbox m
  | txPop => exact execTxPop_ignoresInbox
  | rxClear => exact fun _ _ => rfl
  | rxByte b => exact execRxByte_ignoresInbox b
  | rxTimeout => exact execRxTimeout_ignoresInbox
  | _ => exact exec_ignoresInbox_of_needsResponse rfl

/-! ## Splitting a byte string (R7) -/

theorem split_cons_self (c : Byte) (s : ByteString) : split c (c :: s) = [] :: split c s := by simp [split]

theorem split_ne_nil (c : Byte) (s : ByteString) : split c s ≠ [] := by
  cases s with
  | nil => simp [split]
  | cons b s =>
    simp only [split]
    repeat' split
    all_goals simp

/-- A byte other than the separator joins the first field. -/
theorem split_cons_of_ne {b c : Byte} (h : b ≠ c) (s : ByteString) :
    ∃ f fs, split c s = f :: fs ∧ split c (b :: s) = (b :: f) :: fs := by
  obtain ⟨f, fs, hs⟩ := List.exists_cons_of_ne_nil (split_ne_nil c s)
  exact ⟨f, fs, hs, by simp only [split, h, if_false, hs]⟩

/-- `split` is the library's split at every occurrence of an element. -/
theorem split_eq_splitOn (c : Byte) (s : ByteString) : split c s = s.splitOn c := by
  induction s with
  | nil => rfl
  | cons b s ih =>
    rw [List.splitOn, List.splitOnP_cons_eq_if_modifyHead, ← List.splitOn, ← ih]
    by_cases h : b = c
    · subst h
      simp [split_cons_self]
    · obtain ⟨f, fs, hs, hb⟩ := split_cons_of_ne h s
      simp [hb, hs, h]

/-- `k` separators make `k + 1` fields. -/
theorem split_length (c : Byte) (s : ByteString) : (split c s).length = s.count c + 1 := by
  induction s with
  | nil => rfl
  | cons b s ih =>
    by_cases h : b = c
    · subst h
      rw [split_cons_self, List.length_cons, ih, List.count_cons_self]
    · obtain ⟨f, fs, hs, hb⟩ := split_cons_of_ne h s
      rw [hb, List.count_cons_of_ne h, ← ih, hs, List.length_cons, List.length_cons]

theorem intercalate_split (c : Byte) (s : ByteString) : List.intercalate [c] (split c s) = s := by
  rw [split_eq_splitOn, List.intercalate_splitOn]

theorem not_mem_of_mem_split {c : Byte} {s g : ByteString} (hg : g ∈ split c s) : c ∉ g := by
  induction s generalizing g with
  | nil =>
    obtain rfl := List.mem_singleton.1 hg
    exact List.not_mem_nil
  | cons b s ih =>
    by_cases h : b = c
    · subst h
      rw [split_cons_self, List.mem_cons] at hg
      rcases hg with rfl | hg
      · exact List.not_mem_nil
      · exact ih hg
    · obtain ⟨f, fs, hs, hb⟩ := split_cons_of_ne h s
      rw [hb, List.mem_cons] at hg
      rcases hg with rfl | hg
      · have hf : c ∉ f := ih (by simp [hs])
        simp [hf, Ne.symm h]
      · exact ih (by simp [hs, hg])

/-- The slices of fields joined by a separator, with anything before and behind, read back as the fields. -/
theorem fieldSlices_text (c : Byte) (head rest : ByteString) (f : List ByteString) :
    (fieldSlices head.length f).map (Slice.text (head ++ List.intercalate [c] f ++ rest)) = f := by
  induction f generalizing head with
  | nil => rfl
  | cons g f ih =>
    rw [fieldSlices, List.map_cons]
    cases f with
    | nil => simpa [fieldSlices, Slice.text] using slice_append head g rest
    | cons g' f =>
      have hraw : head ++ List.intercalate [c] (g :: g' :: f) ++ rest =
          head ++ g ++ [c] ++ List.intercalate [c] (g' :: f) ++ rest := by
        simp [List.intercalate_cons_cons]
      have hoff : head.length + g.length + 1 = (head ++ g ++ [c]).length := by simp [Nat.add_assoc]
      rw [hraw, hoff, ih]
      congr 1
      simpa [Slice.text] using slice_append head g ([c] ++ List.intercalate [c] (g' :: f) ++ rest)

end Sys2Proof.Machine
end

section
open Sys2Proof Sys2Proof.Machine

/-! ## The statements -/

/-- Settles O6: the wait of a step without a word, and `exec_ignoresInbox` operation by operation. -/
theorem operationsLeaveTheInboxAlone : Obligations.OperationsLeaveTheInboxAlone := by
  refine ⟨fun s h => step_of_nil h, fun i s ps => ?_⟩
  rw [exec_ignoresInbox i s ps]
  cases exec i s <;> rfl

/-- Settles O49: the laws of `split`, and the slices of the payload as its fields joined by commas. -/
theorem fieldSlicesNameTheFields : Obligations.FieldSlicesNameTheFields := by
  rintro head p rest f rfl
  refine ⟨split_length _ p, intercalate_split _ p, fun g hg => not_mem_of_mem_split hg, ?_⟩
  have h := fieldSlices_text 0x2C#8 head rest (split 0x2C#8 p)
  rwa [intercalate_split] at h

/-- Settles O5: the step takes the word from the inbox and runs it; the decoder answers well-formed operations only. -/
theorem stepRunsThePresentedOperation : Obligations.StepRunsThePresentedOperation := by
  intro s p rest hs
  refine ⟨fun i hi => ⟨decode_answersWellFormed _ i hi, ?_⟩, fun r hr => ?_⟩
  · rw [step_of_cons hs, runWord, hi]
  · rw [step_of_cons hs, runWord, hr]
    exact congrArg _ (illegalOp_eq _ _)

end

/-! The invariants of the state (10_state.md R12, R13, R19 to R21, R30 to R37): what an operation can do to the registers they speak of,
said once, and from it that every step keeps them. -/

section
namespace Sys2Proof.Machine

/-! ## The part of the state that the invariants speak of -/

/-- The two buffers with their lengths, the capture, and what was judged and decoded of the Response. -/
structure Contents where
  cmd : Memory
  cmdLen : Nat
  rx : Memory
  rxLen : Nat
  rxState : RxState
  rxEnd : RxEnd
  verdict : VerdictRegs
  pay : PayRegs
  ack : Ack
  record : Record

/-- The contents held in a state. -/
def State.contents (s : State) : Contents :=
  { cmd := s.cmd, cmdLen := s.cmdLen, rx := s.rx, rxLen := s.rxLen, rxState := s.rxState, rxEnd := s.rxEnd, verdict := s.verdict,
    pay := s.pay, ack := s.ack, record := s.record }

/-- Two states with the same contents hold the same Response. -/
theorem response_of_contents {s t : State} (h : t.contents = s.contents) : t.response = s.response :=
  congrArg (fun c : Contents => Memory.bytes c.rx c.rxLen) h

theorem BuffersOk.of_contents {s t : State} (h : t.contents = s.contents) (hs : BuffersOk s) : BuffersOk t where
  cmd_wf := (congrArg (Memory.wf ·.cmd) h).trans hs.cmd_wf
  cmd_within := (congrArg (Memory.within 996 ·.cmd) h).trans hs.cmd_within
  rx_wf := (congrArg (Memory.wf ·.rx) h).trans hs.rx_wf
  rx_within := (congrArg (Memory.within 1000 ·.rx) h).trans hs.rx_within
  cmdLen_le := (congrArg Contents.cmdLen h).trans_le hs.cmdLen_le
  rxLen_le := (congrArg Contents.rxLen h).trans_le hs.rxLen_le

theorem VerdictOk.of_contents {s t : State} (h : t.contents = s.contents) (hs : VerdictOk s) : VerdictOk t := by
  have hstate : t.rxState = s.rxState := congrArg Contents.rxState h
  have hverdict : t.verdict = s.verdict := congrArg Contents.verdict h
  have hpay : t.pay = s.pay := congrArg Contents.pay h
  have hack : t.ack = s.ack := congrArg Contents.ack h
  obtain ⟨hvc, hvd, hpc, hpd, had⟩ := hs
  constructor <;> simp only [hstate, hverdict, hpay, hack, response_of_contents h] <;> assumption

theorem RecordOk.of_contents {s t : State} (h : t.contents = s.contents) (hs : RecordOk s) : RecordOk t := by
  have hlen : t.rxLen = s.rxLen := congrArg Contents.rxLen h
  have hstate : t.rxState = s.rxState := congrArg Contents.rxState h
  have hrecord : t.record = s.record := congrArg Contents.record h
  obtain ⟨habsent, hheld, hshape, hnull, htexts, hrange⟩ := hs
  constructor <;> simp only [hlen, hstate, hrecord] <;> assumption

/-! ## A record that fits a Response -/

/-- A record as a decoder may write it from a Response of `n` bytes (R30 to R37). -/
structure RecordFits (n : Nat) (r : Record) : Prop where
  tagged : r.tag ≠ .none
  shape : r.isNull = false → r.fields.tag = r.tag
  null_shape : r.isNull = true → r.isPartial = false ∧ r.fields = .none
  texts : ∀ t ∈ r.fields.texts, 5 ≤ t.off ∧ t.off + t.len ≤ n
  range : r.fields.inRange

/-- A null record fits every Response. -/
theorem RecordFits.null {n : Nat} {tag : RecTag} (h : tag ≠ .none) : RecordFits n ⟨tag, true, false, .none⟩ :=
  ⟨h, nofun, fun _ => ⟨rfl, rfl⟩, nofun, trivial⟩

/-- A record with fields fits when they are in range and their text is inside. -/
theorem RecordFits.of_fields {n : Nat} {part : Bool} {f : Fields} (hf : f.tag ≠ .none)
    (ht : ∀ t ∈ f.texts, 5 ≤ t.off ∧ t.off + t.len ≤ n) (hr : f.inRange) : RecordFits n ⟨f.tag, false, part, f⟩ :=
  ⟨hf, fun _ => rfl, nofun, ht, hr⟩

/-- A record that fits the Response held meets the invariant. -/
theorem RecordFits.recordOk {s : State} (h : RecordFits s.rxLen s.record) (hd : s.rxState = .done) : RecordOk s :=
  ⟨fun ht => absurd ht h.tagged, fun _ => hd, h.shape, h.null_shape, h.texts, h.range⟩

/-! ## The text of a payload's fields -/

/-- The slices of fields joined by a separator lie in the text that starts at `off`. -/
theorem fieldSlices_inside (c : Byte) {off : Nat} {f : List ByteString} {t : Slice} (ht : t ∈ fieldSlices off f) :
    off ≤ t.off ∧ t.off + t.len ≤ off + (List.intercalate [c] f).length := by
  induction f generalizing off with
  | nil => cases ht
  | cons g f ih =>
    rw [fieldSlices, List.mem_cons] at ht
    cases f with
    | nil =>
      obtain rfl : t = ⟨off, g.length⟩ := by simpa [fieldSlices] using ht
      simp
    | cons g' f =>
      simp only [List.intercalate_cons_cons, List.length_append, List.length_singleton]
      rcases ht with rfl | ht
      · exact ⟨Nat.le_refl _, by dsimp only; omega⟩
      · have := ih ht
        omega

/-- The fields of a payload lie behind the header and inside the Response that the payload is cut from. -/
theorem payloadSlices_inside {n : Nat} {p : ByteString} (hp : 5 + p.length ≤ n) :
    ∀ t ∈ payloadSlices p, 5 ≤ t.off ∧ t.off + t.len ≤ n := by
  intro t ht
  have h := fieldSlices_inside comma ht
  rw [payloadFields, intercalate_split] at h
  exact ⟨h.1, h.2.trans hp⟩

theorem payloadSlices_length (p : ByteString) : (payloadSlices p).length = (payloadFields p).length := fieldSlices_length _ _

/-- A payload has at least one field, and no more than a comma at every byte makes. -/
theorem payloadFields_length (p : ByteString) : 1 ≤ (payloadFields p).length ∧ (payloadFields p).length ≤ p.length + 1 := by
  rw [payloadFields, split_length]
  have : p.count comma ≤ p.length := List.count_le_length
  omega

/-! ## The record that each decoder writes fits the Response its payload is cut from -/

section Decoders

variable {n : Nat} {p : ByteString} (hp : 5 + p.length ≤ n) (hn : n ≤ 1000) (u : State)

include hp

theorem decodeProtocolId_fits : RecordFits n (decodeProtocolId p u).record := by
  rw [decodeProtocolId, fullRecord_record]
  refine .of_fields (f := .protocolId _) nofun ?_ trivial
  simpa [Fields.texts, wholePayload] using hp

theorem decodeSerial_fits : RecordFits n (decodeSerial p u).record := by
  have whole {part : Bool} {d : Option Nat} (hd : ∀ N, d = some N → N ≤ 99) :
      RecordFits n ⟨.serial, false, part, .serial d (wholePayload p) false⟩ :=
    .of_fields (f := .serial _ _ _) nofun (by simpa [Fields.texts, wholePayload] using hp) ⟨hd, nofun⟩
  unfold decodeSerial
  split
  next h =>
    obtain ⟨hlen, hdigits⟩ := h
    have hN : num (slice p 0 2) < 10 ^ (2 - 0) := num_slice_lt (by rwa [slice_zero] at hdigits) (Nat.le_refl 2)
    have hd : ∀ N, some (num (slice p 0 2)) = some N → N ≤ 99 := by
      rintro N ⟨⟩
      omega
    dsimp only
    split
    next hfit =>
      refine .of_fields (f := .serial _ _ _) nofun ?_ ⟨hd, nofun⟩
      simp only [Fields.texts, List.mem_singleton, forall_eq, Config.headerLen]
      omega
    next => exact whole hd
  next => exact whole nofun

theorem decodeFirmware_fits : RecordFits n (decodeFirmware p u).record := by
  have hmain : 5 ≤ ((payloadSlices p).getD 0 ⟨5, 0⟩).off ∧
      ((payloadSlices p).getD 0 ⟨5, 0⟩).off + ((payloadSlices p).getD 0 ⟨5, 0⟩).len ≤ n := by
    rw [List.getD_eq_getElem?_getD]
    cases h : (payloadSlices p)[0]? with
    | none => exact ⟨Nat.le_refl 5, show 5 + 0 ≤ n by omega⟩
    | some t => exact payloadSlices_inside hp t (List.mem_of_getElem? h)
  have fits {part : Bool} : RecordFits n ⟨.firmware, false, part,
      .firmware ((payloadSlices p).getD 0 ⟨5, 0⟩) (payloadSlices p)[1]? (payloadSlices p)[2]?⟩ := by
    refine .of_fields (f := .firmware _ _ _) nofun ?_ trivial
    simp only [Fields.texts, List.mem_cons, List.mem_append, Option.mem_toList]
    rintro t (rfl | ht | ht)
    · exact hmain
    · exact payloadSlices_inside hp t (List.mem_of_getElem? ht)
    · exact payloadSlices_inside hp t (List.mem_of_getElem? ht)
  unfold decodeFirmware
  dsimp only
  split
  · exact fits
  · exact fits

omit hp in
theorem decodeMode_fits : RecordFits n (decodeMode p u).record := by
  unfold decodeMode
  split
  next => exact .null nofun
  next =>
    split
    next => exact .null nofun
    next h =>
      have hdigit : isDigit (byteAt p 4) = true := by simpa using (not_or.1 h).2
      exact .of_fields (f := .mode _ _) nofun nofun ⟨digVal_le hdigit, rfl⟩

omit hp in
theorem decodeTime_fits : RecordFits n (decodeTime p u).record := by
  unfold decodeTime
  split
  next => exact .null nofun
  next hlen =>
    split
    next => exact .null nofun
    next hdigits =>
      have htake : allDigits (p.take 14) = true := by simpa using hdigits
      have two (a : Nat) (ha : a + 2 ≤ 14) : num (slice p a (a + 2)) ≤ 99 := by
        have := num_slice_lt (a := a) htake ha
        rw [Nat.add_sub_cancel_left] at this
        omega
      have hyear : num (slice p 0 4) < 10 ^ (4 - 0) := num_slice_lt htake (by omega)
      have hiso : (isoText p).length = 19 := by
        simp only [isoText, List.length_append, slice_length, List.length_singleton]
        omega
      exact .of_fields (f := .time _ _ _ _ _ _ _) nofun nofun
        ⟨by omega, two 4 (by omega), two 6 (by omega), two 8 (by omega), two 10 (by omega), two 12 (by omega), hiso⟩

omit hp in
theorem decodeSchedule_fits : RecordFits n (decodeSchedule p u).record := by
  unfold decodeSchedule
  split
  next h =>
    simp only [scheduleShape, Bool.and_eq_true, slice_zero] at h
    have two (a : Nat) (ha : a + 2 ≤ 8) : num (slice p a (a + 2)) ≤ 99 := by
      have := num_slice_lt (a := a) h.1.2 ha
      rw [Nat.add_sub_cancel_left] at this
      omega
    exact .of_fields (f := .schedule _ _ _ _ _ _) nofun nofun
      ⟨two 0 (by omega), two 2 (by omega), two 4 (by omega), two 6 (by omega)⟩
  next => exact .of_fields (f := .schedule _ _ _ _ _ _) nofun nofun (by simp [Fields.inRange])

omit hp in
theorem decodeEnergy_fits : RecordFits n (decodeEnergy p u).record := by
  unfold decodeEnergy
  split
  next => exact .null nofun
  next => exact .of_fields (f := .energy _ _ _) nofun nofun ⟨rfl, rfl⟩

theorem decodeModelWith_fits (table : ByteString → Option ByteString) : RecordFits n (decodeModelWith table p u).record := by
  unfold decodeModelWith
  split
  next => exact .null nofun
  next hlen =>
    have fits (known : Bool) (name : ByteString) : RecordFits n ⟨.model, false, false, .model ⟨5, 2⟩ known name⟩ := by
      refine .of_fields (f := .model _ _ _) nofun ?_ rfl
      simp only [Fields.texts, List.mem_singleton, forall_eq]
      omega
    dsimp only
    split
    · exact fits _ _
    · exact fits _ _

include hn

theorem decodeStatusWith_fits (m : List GsEntry) (names : DirField → DirCode → ByteString)
    (missing : GsEntry → List ByteString → Option ByteString) : RecordFits n (decodeStatusWith m names missing p u).record := by
  have hcount := payloadFields_length p
  unfold decodeStatusWith
  dsimp only
  split
  next => exact .null nofun
  next h =>
    rw [warnIf_record, succeed_record, setRecord_record]
    exact .of_fields (f := .status _ _ _) nofun (payloadSlices_inside hp)
      ⟨(payloadSlices_length p).symm, Nat.le_of_not_lt h, by omega⟩

theorem decodeFault_fits : RecordFits n (decodeFault p u).record := by
  have hcount := payloadFields_length p
  unfold decodeFault
  dsimp only
  split
  next => exact .null nofun
  next h =>
    have fits {part : Bool} : RecordFits n ⟨.fault, false, part, .fault (payloadFields p).length (payloadSlices p)
        (numField (fieldAt (payloadFields p) 0)) (faultFlags (payloadFields p))⟩ :=
      .of_fields (f := .fault _ _ _ _) nofun (payloadSlices_inside hp)
        ⟨(payloadSlices_length p).symm, Nat.le_of_not_lt h, by omega, by simp [faultFlags]⟩
    split
    · exact fits
    · exact fits

theorem decodeRatedWith_fits (m : List RatedEntry) (enums : EnumTable → Nat → Option ByteString) :
    RecordFits n (decodeRatedWith m enums p u).record := by
  have hcount := payloadFields_length p
  have fits {part : Bool} : RecordFits n ⟨.rated, false, part, .rated (payloadFields p).length (payloadSlices p)
      (ratedOverlay m enums (payloadFields p))⟩ :=
    .of_fields (f := .rated _ _ _) nofun (payloadSlices_inside hp) ⟨(payloadSlices_length p).symm, hcount.1, by omega⟩
  unfold decodeRatedWith
  dsimp only
  split
  · rw [raiseErr_record, warnIf_record]
    exact fits
  · rw [warnIf_record]
    exact fits

end Decoders

/-! ## The record after an operation that needs a Response -/

/-- A decoder of the common frame writes a record that fits, when its rule does. -/
theorem withPayload_fits {i : Instr} {tag : RecTag} {s t : State} {k : ByteString → State → State}
    (h : withPayload i tag s k = .next t) (hd : s.rxState = .done) (htag : tag ≠ .none)
    (hk : ∀ p u, 5 + p.length ≤ s.rxLen → RecordFits s.rxLen (k p u).record) : RecordFits s.rxLen t.record := by
  rcases withPayload_next.1 h with ⟨hnd, -⟩ | ⟨-, -, ⟨-, rfl⟩ | ⟨c, -, -, rfl⟩ | ⟨c, hx, -, rfl⟩⟩
  · exact absurd hd hnd
  · exact .null htag
  · exact .null htag
  · have hc : 5 + c.len ≤ s.response.length := (extractAt_some hx).2
    refine hk _ _ ?_
    rw [payloadOf_length_of_le hc]
    simpa using hc

/-- `DEC_SCHEDULE` writes a record that fits, with or without a payload. -/
theorem execDecSchedule_fits {s t : State} (hd : s.rxState = .done) (h : execDecSchedule s = .next t) :
    RecordFits s.rxLen t.record := by
  rcases withResponse_next.1 h with ⟨-, -, h⟩ | ⟨hnd, -⟩
  · dsimp only at h
    split at h
    · cases h
      exact .of_fields (f := .schedule _ _ _ _ _ _) nofun nofun (by simp [Fields.inRange])
    · cases h
      exact decodeSchedule_fits _
  · exact absurd hd hnd

/-- `DEC_ENERGY` writes a record that fits. -/
theorem execDecEnergy_fits {s t : State} (hd : s.rxState = .done) (h : execDecEnergy s = .next t) :
    RecordFits s.rxLen t.record := by
  rcases withResponse_next.1 h with ⟨-, -, h⟩ | ⟨hnd, -⟩
  · cases h
    exact decodeEnergy_fits _
  · exact absurd hd hnd

/-- The validator, the extractor and the acknowledgement check leave the record; every decoder writes one that fits the Response. -/
theorem exec_record {i : Instr} (hi : needsResponse i = true) {s t : State} (hd : s.rxState = .done) (hl : s.rxLen ≤ 1000)
    (h : exec i s = .next t) : t.record = s.record ∨ RecordFits s.rxLen t.record := by
  cases i <;> simp only [needsResponse, Bool.false_eq_true] at hi
  case validate =>
    rw [exec, execValidate, withResponse_done hd hl] at h
    cases h
    exact .inl (validatePart_record _ _ _)
  case extract =>
    rw [exec, execExtract, withResponse_done hd hl] at h
    cases h
    exact .inl (extractPart_record _ _ _)
  case ackCheck =>
    rw [exec, execAckCheck, withResponse_done hd hl] at h
    split at h <;> cases h <;> exact .inl rfl
  case decProtocolId => exact .inr (withPayload_fits h hd nofun fun _ _ hp => decodeProtocolId_fits hp _)
  case decStatus => exact .inr (withPayload_fits h hd nofun fun _ _ hp => decodeStatusWith_fits hp hl _ _ _ _)
  case decMode => exact .inr (withPayload_fits h hd nofun fun _ _ _ => decodeMode_fits _)
  case decFault => exact .inr (withPayload_fits h hd nofun fun _ _ hp => decodeFault_fits hp hl _)
  case decSerial => exact .inr (withPayload_fits h hd nofun fun _ _ hp => decodeSerial_fits hp _)
  case decFirmware => exact .inr (withPayload_fits h hd nofun fun _ _ hp => decodeFirmware_fits hp _)
  case decRated => exact .inr (withPayload_fits h hd nofun fun _ _ hp => decodeRatedWith_fits hp hl _ _ _)
  case decModel => exact .inr (withPayload_fits h hd nofun fun _ _ hp => decodeModelWith_fits hp _ _)
  case decTime => exact .inr (withPayload_fits h hd nofun fun _ _ _ => decodeTime_fits _)
  case decSchedule => exact .inr (execDecSchedule_fits hd h)
  case decEnergy => exact .inr (execDecEnergy_fits hd h)

/-! ## What an operation can do to the contents -/

/-- The effects that an operation can have on the contents of the block. -/
inductive Effect (s t : State) : Prop
  /-- Nothing but other registers is written. -/
  | kept (h : t.contents = s.contents)
  /-- `RESET` and `RX_CLEAR`: no Response, nothing judged; `RESET` also empties the command. -/
  | cleared (len : Nat) (state : RxState) (hlen : len ≤ s.cmdLen) (hstate : state ≠ .done)
      (h : t.contents = State.contents { s with
        cmdLen := len, rxLen := 0, rxState := state, rxEnd := .none, verdict := .cleared, pay := .cleared, ack := .none,
        record := .cleared })
  /-- `CMD_CLEAR`. -/
  | emptied (h : t.contents = State.contents { s with cmdLen := 0 })
  /-- `CMD_PUSH` with room. -/
  | pushed (b : Byte) (room : s.cmdLen < 996)
      (h : t.contents = State.contents { s with cmd := Memory.write s.cmd s.cmdLen b, cmdLen := s.cmdLen + 1 })
  /-- `RX_BYTE` while capturing, with room. -/
  | stored (b : Byte) (capturing : s.rxState = .capturing) (room : s.rxLen < 1000) (h : t = storeByte b s)
  /-- `RX_TIMEOUT` while capturing. -/
  | timedOut (capturing : s.rxState = .capturing) (h : t.contents = State.contents { s with rxState := .done, rxEnd := .timeout })
  /-- An operation that needs a Response, with one: it may judge or decode it. -/
  | judged (v : VerdictRegs) (p : PayRegs) (a : Ack) (r : Record) (done : s.rxState = .done)
      (hv : v = s.verdict ∨ v = (validate s.response).regs) (hp : p = s.pay ∨ p = payRegs (extract s.response))
      (ha : a = s.ack ∨ a = if isAck s.response then .accepted else .refused) (hr : r = s.record ∨ RecordFits s.rxLen r)
      (h : t.contents = State.contents { s with verdict := v, pay := p, ack := a, record := r })

/-- A value that an update writes or leaves: `exec_response` gives it as an option. -/
theorem getD_eq_or {α : Type} {o : Option α} {x y : α} (h : o = none ∨ o = some y) : o.getD x = x ∨ o.getD x = y := by
  rcases h with rfl | rfl
  · exact .inl rfl
  · exact .inr rfl

/-- An answer that writes other registers alone. -/
theorem Effect.of_next {s t u : State} (h : (.next u : Result) = .next t) (hu : u.contents = s.contents) : Effect s t := by
  cases h
  exact .kept hu

/-- The operations that the frame builder excludes while busy: refused, or the effect of their own rule. -/
theorem whenNotBusy_effect {i : Instr} {s t : State} {k : State → Result} (h : whenNotBusy i s k = .next t)
    (hk : k s = .next t → Effect s t) : Effect s t := by
  rcases whenNotBusy_next.1 h with ⟨-, h⟩ | ⟨-, rfl⟩
  · exact hk h
  · exact .kept rfl

theorem execCrcInit_effect {s t : State} (h : execCrcInit s = .next t) : Effect s t :=
  whenNotBusy_effect h fun h => .of_next h rfl

theorem execCrcByte_effect {b : Byte} {s t : State} (h : execCrcByte b s = .next t) : Effect s t :=
  whenNotBusy_effect h fun h => .of_next h rfl

theorem execCrcBit_effect {d : Byte} {s t : State} (h : execCrcBit d s = .next t) : Effect s t :=
  whenNotBusy_effect h fun h => .of_next h rfl

theorem execCmdClear_effect {s t : State} (h : execCmdClear s = .next t) : Effect s t := by
  refine whenNotBusy_effect h fun h => ?_
  cases h
  exact .emptied rfl

theorem execCmdPush_effect {b : Byte} {s t : State} (h : execCmdPush b s = .next t) : Effect s t := by
  refine whenNotBusy_effect h fun h => ?_
  split at h
  next room =>
    cases h
    exact .pushed b room rfl
  next => exact .of_next h rfl

/-- `TX_START` writes registers of the frame builder alone, whichever check stops it. -/
theorem execTxStart_effect {m : Byte} {s t : State} (h : execTxStart m s = .next t) : Effect s t := by
  refine whenNotBusy_effect h fun h => ?_
  repeat' split at h
  all_goals exact .of_next h rfl

theorem popBody_effect {s t : State} (h : popBody s = .next t) : Effect s t := by
  unfold popBody at h
  split at h
  · exact .of_next h rfl
  · cases h

/-- `TX_POP` writes registers of the frame builder alone, in every phase. -/
theorem execTxPop_effect {s t : State} (h : execTxPop s = .next t) : Effect s t := by
  cases hp : s.txPhase <;> simp only [execTxPop, hp] at h
  case body => exact popBody_effect h
  all_goals exact .of_next h rfl

theorem execRxByte_effect {b : Byte} {s t : State} (h : execRxByte b s = .next t) : Effect s t := by
  unfold execRxByte at h
  split at h
  next capturing =>
    split at h
    next room =>
      cases h
      exact .stored b capturing room rfl
    next => cases h
  next => exact .of_next h rfl

theorem execRxTimeout_effect {s t : State} (h : execRxTimeout s = .next t) : Effect s t := by
  unfold execRxTimeout at h
  split at h
  next capturing =>
    refine .timedOut capturing ?_
    dsimp only at h
    split at h <;> cases h <;> rfl
  next => exact .of_next h rfl

theorem exec_effect_of_needsResponse {i : Instr} (hi : needsResponse i = true) {s t : State} (h : exec i s = .next t) :
    Effect s t := by
  obtain ⟨k, hk⟩ := exec_eq_withResponse hi
  rcases withResponse_next.1 ((hk s).symm.trans h) with ⟨hd, hl, -⟩ | ⟨-, rfl⟩
  · obtain ⟨v, p, a, r, e, d, new, hv, hp, ha, hupd⟩ := exec_response i hi s.response
    have hr := exec_record hi hd hl h
    rw [hupd s hd hl rfl] at h
    cases h
    exact .judged _ _ _ _ hd (getD_eq_or hv) (getD_eq_or hp) (getD_eq_or ha) hr rfl
  · exact .kept rfl

/-- What an operation can do to the contents, operation by operation. -/
theorem exec_effect {i : Instr} {s t : State} (h : exec i s = .next t) : Effect s t := by
  cases i with
  | nop => exact .of_next h rfl
  | reset =>
    cases h
    exact .cleared 0 .idle (Nat.zero_le _) nofun rfl
  | crcInit => exact execCrcInit_effect h
  | crcByte b => exact execCrcByte_effect h
  | crcBit d => exact execCrcBit_effect h
  | cmdClear => exact execCmdClear_effect h
  | cmdPush b => exact execCmdPush_effect h
  | txStart m => exact execTxStart_effect h
  | txPop => exact execTxPop_effect h
  | rxClear =>
    cases h
    exact .cleared s.cmdLen .capturing (Nat.le_refl _) nofun rfl
  | rxByte b => exact execRxByte_effect h
  | rxTimeout => exact execRxTimeout_effect h
  | _ => exact exec_effect_of_needsResponse rfl h

/-- A step has the effect of an operation: a wait and a reserved word leave the contents, and taking the word does too. -/
theorem step_effect {s t : State} (h : step s = .next t) : ∃ u, u.contents = s.contents ∧ Effect u t := by
  rcases step_next.1 h with ⟨-, rfl⟩ | ⟨p, rest, -, ⟨i, -, h⟩ | ⟨-, rfl⟩⟩
  · exact ⟨t, rfl, .kept rfl⟩
  · exact ⟨{ s with inbox := rest }, rfl, exec_effect h⟩
  · exact ⟨s, rfl, .kept rfl⟩

/-! ## Every effect keeps the invariants -/

/-- Lengths may shrink, and everything else may be written. -/
theorem BuffersOk.of_shorter {s t : State} (hs : BuffersOk s) (hcmd : t.cmd = s.cmd) (hrx : t.rx = s.rx)
    (hcmdLen : t.cmdLen ≤ s.cmdLen) (hrxLen : t.rxLen ≤ s.rxLen) : BuffersOk t where
  cmd_wf := hcmd ▸ hs.cmd_wf
  cmd_within := hcmd ▸ hs.cmd_within
  rx_wf := hrx ▸ hs.rx_wf
  rx_within := hrx ▸ hs.rx_within
  cmdLen_le := hcmdLen.trans hs.cmdLen_le
  rxLen_le := hrxLen.trans hs.rxLen_le

theorem Effect.keeps_buffers {s t : State} (e : Effect s t) (hs : BuffersOk s) : BuffersOk t := by
  cases e with
  | kept h => exact hs.of_contents h
  | cleared _ _ hlen _ h => exact .of_contents h (hs.of_shorter rfl rfl hlen (Nat.zero_le _))
  | emptied h => exact .of_contents h (hs.of_shorter rfl rfl (Nat.zero_le _) (Nat.le_refl _))
  | pushed b room h =>
    exact .of_contents h { hs with
      cmd_wf := Memory.wf_write hs.cmd_wf _ _
      cmd_within := Memory.within_write hs.cmd_within _ room
      cmdLen_le := room }
  | stored b _ room h =>
    rw [h, storeByte_eq]
    exact { hs with
      rx_wf := Memory.wf_write hs.rx_wf _ _
      rx_within := Memory.within_write hs.rx_within _ room
      rxLen_le := room }
  | timedOut _ h => exact .of_contents h (hs.of_shorter rfl rfl (Nat.le_refl _) (Nat.le_refl _))
  | judged _ _ _ _ _ _ _ _ _ h => exact .of_contents h (hs.of_shorter rfl rfl (Nat.le_refl _) (Nat.le_refl _))

/-- The registers that judge a Response are as `RESET` and `RX_CLEAR` leave them. -/
structure Unjudged (s : State) : Prop where
  verdict : s.verdict = .cleared
  pay : s.pay = .cleared
  ack : s.ack = .none

/-- Cleared registers describe nothing, so they meet the invariant whatever the capture holds. -/
theorem Unjudged.verdictOk {s : State} (h : Unjudged s) : VerdictOk s where
  cleared _ := h.verdict
  describes hv := by simp [h.verdict, VerdictRegs.cleared] at hv
  pay_cleared _ := h.pay
  pay_describes hp := by simp [h.pay, PayRegs.cleared] at hp
  ack_describes ha := absurd h.ack ha

/-- Without a Response nothing is judged. -/
theorem VerdictOk.unjudged {s : State} (hs : VerdictOk s) (hd : s.rxState ≠ .done) : Unjudged s where
  verdict := hs.cleared (Bool.eq_false_iff.2 fun hv => hd (hs.describes hv).1)
  pay := hs.pay_cleared (Bool.eq_false_iff.2 fun hp => hd (hs.pay_describes hp).1)
  ack := by_contra fun ha => hd (hs.ack_describes ha).1

/-- Judging the Response held keeps the invariant: each register is left or written with its result. -/
theorem VerdictOk.judge {s : State} (hs : VerdictOk s) (hd : s.rxState = .done) {v : VerdictRegs} {p : PayRegs} {a : Ack}
    (r : Record) (hv : v = s.verdict ∨ v = (validate s.response).regs) (hp : p = s.pay ∨ p = payRegs (extract s.response))
    (ha : a = s.ack ∨ a = if isAck s.response then .accepted else .refused) :
    VerdictOk { s with verdict := v, pay := p, ack := a, record := r } where
  cleared h := by
    rcases hv with rfl | rfl
    · exact hs.cleared h
    · cases h
  describes h := by
    rcases hv with rfl | rfl
    · exact hs.describes h
    · exact ⟨hd, rfl⟩
  pay_cleared h := by
    rcases hp with rfl | rfl
    · exact hs.pay_cleared h
    · rw [payRegs_valid] at h
      cases h
  pay_describes h := by
    rcases hp with rfl | rfl
    · exact hs.pay_describes h
    · exact ⟨hd, rfl⟩
  ack_describes h := by
    rcases ha with rfl | rfl
    · exact hs.ack_describes h
    · exact ⟨hd, rfl⟩

theorem Effect.keeps_verdicts {s t : State} (e : Effect s t) (hs : VerdictOk s) : VerdictOk t := by
  cases e with
  | kept h => exact hs.of_contents h
  | cleared _ _ _ _ h => exact .of_contents h (Unjudged.verdictOk ⟨rfl, rfl, rfl⟩)
  | emptied h => exact .of_contents h { hs with }
  | pushed _ _ h => exact .of_contents h { hs with }
  | stored b capturing _ h =>
    obtain ⟨hv, hp, ha⟩ := hs.unjudged (by simp [capturing])
    rw [h, storeByte_eq]
    exact Unjudged.verdictOk ⟨hv, hp, ha⟩
  | timedOut capturing h =>
    obtain ⟨hv, hp, ha⟩ := hs.unjudged (by simp [capturing])
    exact .of_contents h (Unjudged.verdictOk ⟨hv, hp, ha⟩)
  | judged _ _ _ r hd hv hp ha _ h => exact .of_contents h (hs.judge hd r hv hp ha)

/-- The absent record meets the invariant whatever the capture holds. -/
theorem RecordOk.of_absent {s : State} (h : s.record = .cleared) : RecordOk s := by
  constructor <;> rw [h]
  · exact fun _ => rfl
  · exact fun ht => absurd rfl ht
  · exact fun _ => rfl
  · exact nofun
  · exact nofun
  · exact trivial

/-- Without a Response there is no record. -/
theorem RecordOk.record_of_not_done {s : State} (hs : RecordOk s) (hd : s.rxState ≠ .done) : s.record = .cleared :=
  hs.absent (by_contra fun ht => hd (hs.held ht))

theorem Effect.keeps_record {s t : State} (e : Effect s t) (hs : RecordOk s) : RecordOk t := by
  cases e with
  | kept h => exact hs.of_contents h
  | cleared _ _ _ _ h => exact .of_contents h (.of_absent rfl)
  | emptied h => exact .of_contents h { hs with }
  | pushed _ _ h => exact .of_contents h { hs with }
  | stored b capturing _ h =>
    rw [h, storeByte_eq]
    exact .of_absent (hs.record_of_not_done (by simp [capturing]))
  | timedOut capturing h => exact .of_contents h (.of_absent (hs.record_of_not_done (by simp [capturing])))
  | judged _ _ _ r hd _ _ _ hr h =>
    refine .of_contents h ?_
    rcases hr with rfl | hr
    · exact { hs with }
    · exact hr.recordOk hd

end Sys2Proof.Machine
end

section
open Sys2Proof Sys2Proof.Machine

/-! ## The statements -/

/-- Settles O50: every effect that a step can have keeps the buffers. -/
theorem stepKeepsTheBuffers : Obligations.StepKeepsTheBuffers := by
  intro s t hs h
  obtain ⟨u, hu, e⟩ := step_effect h
  exact e.keeps_buffers (hs.of_contents hu)

/-- Settles O53: a byte or a timeout finds the registers cleared, and an operation on a Response writes its own results. -/
theorem stepKeepsTheVerdicts : Obligations.StepKeepsTheVerdicts := by
  intro s t hs h
  obtain ⟨u, hu, e⟩ := step_effect h
  exact e.keeps_verdicts (hs.of_contents hu)

/-- Settles O54: a byte or a timeout finds no record, and every decoder writes one that fits the Response. -/
theorem stepKeepsTheRecord : Obligations.StepKeepsTheRecord := by
  intro s t _ hs h
  obtain ⟨u, hu, e⟩ := step_effect h
  exact e.keeps_record (hs.of_contents hu)

end


/-! The two buffers (20_memory.md): which operations write them (R42), the Response that stays (R56), and the bytes above the lengths,
which nothing observes (R41). -/

section
namespace Sys2Proof.Machine

/-! ## What an operation leaves of the buffers and of the Response (R42, R56) -/

/-- The capture registers of `t` are those of `s`: it holds the same Response, or none as before. -/
structure SameCapture (s t : State) : Prop where
  rxState : t.rxState = s.rxState
  rxEnd : t.rxEnd = s.rxEnd
  rxLen : t.rxLen = s.rxLen
  rx : t.rx = s.rx

theorem SameCapture.refl (s : State) : SameCapture s s := ⟨rfl, rfl, rfl, rfl⟩

theorem SameCapture.trans {s t u : State} (h : SameCapture s t) (h' : SameCapture t u) : SameCapture s u :=
  ⟨h'.rxState.trans h.rxState, h'.rxEnd.trans h.rxEnd, h'.rxLen.trans h.rxLen, h'.rx.trans h.rx⟩

theorem SameCapture.of_contents {s t : State} (h : t.contents = s.contents) : SameCapture s t :=
  ⟨congrArg Contents.rxState h, congrArg Contents.rxEnd h, congrArg Contents.rxLen h, congrArg Contents.rx h⟩

theorem SameCapture.response {s t : State} (h : SameCapture s t) : t.response = s.response := by
  rw [State.response, h.rx, h.rxLen, ← State.response]

/-- What the operation `i` leaves when it takes `s` to `t`: a buffer that is not its own to write, and a Response. -/
structure Frame (i : Instr) (s t : State) : Prop where
  cmd : (∀ b, i ≠ .cmdPush b) → t.cmd = s.cmd
  rx : (∀ b, i ≠ .rxByte b) → t.rx = s.rx
  capture : s.rxState = .done → i ≠ .rxClear → i ≠ .reset → SameCapture s t

/-- An operation that writes neither the command buffer nor a capture register. -/
theorem Frame.of_same {i : Instr} {s t : State} (hcmd : t.cmd = s.cmd) (h : SameCapture s t) : Frame i s t :=
  ⟨fun _ => hcmd, fun _ => h.rx, fun _ _ _ => h⟩

theorem Frame.of_contents {i : Instr} {s t : State} (h : t.contents = s.contents) : Frame i s t :=
  .of_same (congrArg Contents.cmd h) (.of_contents h)

/-- Every next state that the answer `r` may give keeps what `i` leaves. -/
def Keeps (i : Instr) (s : State) (r : Result) : Prop := ∀ t, r = .next t → Frame i s t

theorem Keeps.next {i : Instr} {s t : State} (h : Frame i s t) : Keeps i s (.next t) := by
  rintro _ ⟨⟩
  exact h

/-- An answer that writes other registers alone. -/
theorem Keeps.other {i : Instr} {s t : State} (h : t.contents = s.contents) : Keeps i s (.next t) := .next (.of_contents h)

theorem Keeps.fault {i : Instr} {s : State} (r : Fault) : Keeps i s (.fault r) := by
  rintro _ ⟨⟩

theorem Keeps.ite {i : Instr} {s : State} {c : Prop} [Decidable c] {r r' : Result} (h : Keeps i s r) (h' : Keeps i s r') :
    Keeps i s (if c then r else r') := by
  split
  · exact h
  · exact h'

/-- The guard of R16 adds a refusal, which writes the outcome alone. -/
theorem whenNotBusy_keeps {i j : Instr} {s : State} {k : State → Result} (h : Keeps i s (k s)) : Keeps i s (whenNotBusy j s k) :=
  .ite (.other rfl) h

theorem execCrcInit_keeps (s : State) : Keeps .crcInit s (execCrcInit s) := whenNotBusy_keeps (.other rfl)

theorem execCrcByte_keeps (b : Byte) (s : State) : Keeps (.crcByte b) s (execCrcByte b s) := whenNotBusy_keeps (.other rfl)

theorem execCrcBit_keeps (d : Byte) (s : State) : Keeps (.crcBit d) s (execCrcBit d s) := whenNotBusy_keeps (.other rfl)

/-- `CMD_CLEAR` writes no byte of the command buffer. -/
theorem execCmdClear_keeps (s : State) : Keeps .cmdClear s (execCmdClear s) :=
  whenNotBusy_keeps (.next (.of_same rfl ⟨rfl, rfl, rfl, rfl⟩))

theorem execCmdPush_keeps (b : Byte) (s : State) : Keeps (.cmdPush b) s (execCmdPush b s) :=
  whenNotBusy_keeps <| .ite
    (.next ⟨fun h => absurd rfl (h b), fun _ => rfl, fun _ _ _ => ⟨rfl, rfl, rfl, rfl⟩⟩)
    (.other rfl)

theorem execTxStart_keeps (m : Byte) (s : State) : Keeps (.txStart m) s (execTxStart m s) :=
  whenNotBusy_keeps <| .ite (.other rfl) <| .ite (.other rfl) <| .ite (.other rfl) <| .other rfl

theorem execTxPop_keeps (s : State) : Keeps .txPop s (execTxPop s) := by
  unfold execTxPop
  cases s.txPhase with
  | body => exact .ite (.other rfl) (.fault _)
  | _ => exact .other rfl

/-- A byte is stored only while capturing, so a Response stays. -/
theorem execRxByte_keeps (b : Byte) (s : State) : Keeps (.rxByte b) s (execRxByte b s) := by
  unfold execRxByte
  split
  next capturing =>
    refine .ite (.next ?_) (.fault _)
    rw [storeByte_eq]
    exact ⟨fun _ => rfl, fun h => absurd rfl (h b), fun done => by simp [capturing] at done⟩
  next => exact .other rfl

/-- The Timer ends a capture only while capturing, so a Response stays. -/
theorem execRxTimeout_keeps (s : State) : Keeps .rxTimeout s (execRxTimeout s) := by
  unfold execRxTimeout
  split
  next capturing =>
    have ended {t : State} (hcmd : t.cmd = s.cmd) (hrx : t.rx = s.rx) : Keeps .rxTimeout s (.next t) :=
      .next ⟨fun _ => hcmd, fun _ => hrx, fun done => by simp [capturing] at done⟩
    exact .ite (ended rfl rfl) (ended rfl rfl)
  next => exact .other rfl

/-- An operation answers a next state on a Response only when the Response lies inside the buffer. -/
theorem rxLen_le_of_exec {i : Instr} (hi : needsResponse i = true) {s t : State} (hd : s.rxState = .done)
    (h : exec i s = .next t) : s.rxLen ≤ 1000 := by
  obtain ⟨k, hk⟩ := exec_eq_withResponse hi
  rcases withResponse_next.1 ((hk s).symm.trans h) with ⟨-, hl, -⟩ | ⟨hnd, -⟩
  · exact hl
  · exact absurd hd hnd

theorem exec_not_done {i : Instr} (hi : needsResponse i = true) {s : State} (hd : s.rxState ≠ .done) :
    exec i s = .next { s with err := .caller, errInfo := .notReady } := by
  obtain ⟨k, hk⟩ := exec_eq_withResponse hi
  rw [hk, withResponse_not_done hd]

/-- The operations that need a Response read it and write none of the registers that hold it. -/
theorem exec_keeps_of_needsResponse {i : Instr} (hi : needsResponse i = true) (s : State) : Keeps i s (exec i s) := by
  by_cases hd : s.rxState = .done
  · intro t h
    obtain ⟨v, p, a, r, e, d, new, -, -, -, hupd⟩ := exec_response i hi s.response
    rw [hupd s hd (rxLen_le_of_exec hi hd h) rfl] at h
    cases h
    exact .of_same rfl ⟨rfl, rfl, rfl, rfl⟩
  · rw [exec_not_done hi hd]
    exact .other rfl

/-- What every operation leaves, operation by operation. -/
theorem exec_keeps (i : Instr) (s : State) : Keeps i s (exec i s) := by
  cases i with
  | nop => exact .other rfl
  | reset => exact .next ⟨fun _ => rfl, fun _ => rfl, fun _ _ h => absurd rfl h⟩
  | crcInit => exact execCrcInit_keeps s
  | crcByte b => exact execCrcByte_keeps b s
  | crcBit d => exact execCrcBit_keeps d s
  | cmdClear => exact execCmdClear_keeps s
  | cmdPush b => exact execCmdPush_keeps b s
  | txStart m => exact execTxStart_keeps m s
  | txPop => exact execTxPop_keeps s
  | rxClear => exact .next ⟨fun _ => rfl, fun _ => rfl, fun _ h => absurd rfl h⟩
  | rxByte b => exact execRxByte_keeps b s
  | rxTimeout => exact execRxTimeout_keeps s
  | _ => exact exec_keeps_of_needsResponse rfl s

/-! ## A Response stays, and is judged alike (R56) -/

theorem runOps_cons_next {i : Instr} {is : List Instr} {s t : State} :
    runOps (i :: is) s = .next t ↔ ∃ u, exec i s = .next u ∧ runOps is u = .next t := by
  rw [runOps]
  cases exec i s <;> simp

/-- Along a run without `RX_CLEAR` and `RESET` a Response stays. -/
theorem runOps_keeps_capture {ops : List Instr} {s t : State} (hd : s.rxState = .done)
    (hops : ∀ j ∈ ops, j ≠ .rxClear ∧ j ≠ .reset) (h : runOps ops s = .next t) : SameCapture s t := by
  induction ops generalizing s with
  | nil =>
    cases h
    exact .refl _
  | cons i ops ih =>
    obtain ⟨⟨hclear, hreset⟩, hops⟩ := List.forall_mem_cons.1 hops
    obtain ⟨u, hu, h⟩ := runOps_cons_next.1 h
    have hsu : SameCapture s u := (exec_keeps i s u hu).capture hd hclear hreset
    exact hsu.trans (ih (hsu.rxState.trans hd) hops h)

/-- An update writes the same value to both states, or to neither. -/
theorem getD_eq_getD_or {α : Type} (o : Option α) (x y : α) : o.getD y = o.getD x ∨ (o.getD x = x ∧ o.getD y = y) := by
  cases o with
  | none => exact .inr ⟨rfl, rfl⟩
  | some _ => exact .inl rfl

/-! ## What is observed of the buffers (R41) -/

/-- The state with other buffers. -/
abbrev State.withBuffers (s : State) (c x : Memory) : State := { s with cmd := c, rx := x }

/-- Two answers of which the second is a next state when the first is, one that differs at most in bytes above the lengths. -/
def AnswersAlike (r r' : Result) : Prop := ∀ s', r = .next s' → ∃ t', r' = .next t' ∧ SameBelowLengths s' t'

theorem AnswersAlike.next {s t : State} (h : SameBelowLengths s t) : AnswersAlike (.next s) (.next t) := by
  rintro _ ⟨⟩
  exact ⟨t, rfl, h⟩

theorem AnswersAlike.fault (r : Fault) (r' : Result) : AnswersAlike (.fault r) r' := by
  rintro _ ⟨⟩

/-- A choice by one condition, as it reads in the two states. -/
theorem AnswersAlike.ite {c c' : Prop} [Decidable c] [Decidable c'] {r₁ r₂ r₁' r₂' : Result} (hc : c ↔ c')
    (h₁ : AnswersAlike r₁ r₁') (h₂ : AnswersAlike r₂ r₂') :
    AnswersAlike (if c then r₁ else r₂) (if c' then r₁' else r₂') := by
  by_cases h : c
  · rwa [if_pos h, if_pos (hc.1 h)]
  · rwa [if_neg h, if_neg (mt hc.2 h)]

/-- A byte written at the length leaves two buffers alike up to one byte more. -/
theorem Memory.read_write_congr {m m' : Memory} {n : Nat} (hm : Memory.wf m = true) (hm' : Memory.wf m' = true)
    (h : ∀ j, j < n → Memory.read m' j = Memory.read m j) (b : Byte) :
    ∀ j, j < n + 1 → Memory.read (Memory.write m' n b) j = Memory.read (Memory.write m n b) j := by
  intro j hj
  by_cases hjn : j = n
  · subst hjn
    rw [Memory.read_write_same hm, Memory.read_write_same hm']
  · rw [Memory.read_write_other m b hjn, Memory.read_write_other m' b hjn]
    exact h j (by omega)

/-- Below the length 0 any two buffers are alike. -/
theorem Memory.read_alike_zero (m m' : Memory) : ∀ j, j < 0 → Memory.read m' j = Memory.read m j :=
  fun _ h => absurd h (Nat.not_lt_zero _)

section Alike

variable {s : State} {c x : Memory} (hc : ∀ j, j < s.cmdLen → Memory.read c j = Memory.read s.cmd j)
  (hx : ∀ j, j < s.rxLen → Memory.read x j = Memory.read s.rx j)

include hc hx

/-- The guard of R16 looks at no buffer. -/
theorem whenNotBusy_alike {i : Instr} {k : State → Result} (h : AnswersAlike (k s) (k (s.withBuffers c x))) :
    AnswersAlike (whenNotBusy i s k) (whenNotBusy i (s.withBuffers c x) k) :=
  .ite Iff.rfl (.next ⟨rfl, hc, hx⟩) h

theorem execCrcInit_alike : AnswersAlike (execCrcInit s) (execCrcInit (s.withBuffers c x)) :=
  whenNotBusy_alike hc hx (.next ⟨rfl, hc, hx⟩)

theorem execCrcByte_alike (b : Byte) : AnswersAlike (execCrcByte b s) (execCrcByte b (s.withBuffers c x)) :=
  whenNotBusy_alike hc hx (.next ⟨rfl, hc, hx⟩)

theorem execCrcBit_alike (d : Byte) : AnswersAlike (execCrcBit d s) (execCrcBit d (s.withBuffers c x)) :=
  whenNotBusy_alike hc hx (.next ⟨rfl, hc, hx⟩)

/-- After `CMD_CLEAR` no byte of the command buffer is below the length. -/
theorem execCmdClear_alike : AnswersAlike (execCmdClear s) (execCmdClear (s.withBuffers c x)) :=
  whenNotBusy_alike hc hx (.next ⟨rfl, Memory.read_alike_zero _ _, hx⟩)

/-- `CMD_PUSH` writes the byte at the length in both buffers. -/
theorem execCmdPush_alike (b : Byte) (hs : Memory.wf s.cmd = true) (hwf : Memory.wf c = true) :
    AnswersAlike (execCmdPush b s) (execCmdPush b (s.withBuffers c x)) :=
  whenNotBusy_alike hc hx <| .ite Iff.rfl
    (.next ⟨rfl, Memory.read_write_congr hs hwf hc b, hx⟩)
    (.next ⟨rfl, hc, hx⟩)

theorem execTxStart_alike (m : Byte) : AnswersAlike (execTxStart m s) (execTxStart m (s.withBuffers c x)) :=
  have refuse (d : Detail) : AnswersAlike (.next (callerError d (opcode (.txStart m)) s))
      (.next (callerError d (opcode (.txStart m)) (s.withBuffers c x))) := .next ⟨rfl, hc, hx⟩
  whenNotBusy_alike hc hx <|
    .ite Iff.rfl (refuse .badMarker) <| .ite Iff.rfl (refuse .cmdTooLong) <| .ite Iff.rfl (refuse .cmdNotAscii) <|
      .next ⟨rfl, hc, hx⟩

/-- Phase `BODY` reads the command buffer, below the length. -/
theorem popBody_alike (hi : s.txIdx < s.cmdLen) : AnswersAlike (popBody s) (popBody (s.withBuffers c x)) := by
  refine .ite Iff.rfl (.next ?_) (.fault _ _)
  simp only [hc s.txIdx hi]
  exact ⟨rfl, hc, hx⟩

theorem execTxPop_alike (hbody : s.txPhase = .body → s.txIdx < s.cmdLen) :
    AnswersAlike (execTxPop s) (execTxPop (s.withBuffers c x)) := by
  cases hp : s.txPhase with
  | body =>
    simp only [execTxPop, hp]
    exact popBody_alike hc hx (hbody hp)
  | _ =>
    simp only [execTxPop, hp]
    exact .next ⟨rfl, hc, hx⟩

/-- `RX_BYTE` writes the byte at the length in both buffers. -/
theorem execRxByte_alike (b : Byte) (hs : Memory.wf s.rx = true) (hwf : Memory.wf x = true) :
    AnswersAlike (execRxByte b s) (execRxByte b (s.withBuffers c x)) := by
  refine .ite Iff.rfl (.ite Iff.rfl (.next ?_) (.fault _ _)) (.next ⟨rfl, hc, hx⟩)
  rw [storeByte_eq, storeByte_eq]
  exact ⟨rfl, hc, Memory.read_write_congr hs hwf hx b⟩

theorem execRxTimeout_alike : AnswersAlike (execRxTimeout s) (execRxTimeout (s.withBuffers c x)) :=
  .ite Iff.rfl (.ite Iff.rfl (.next ⟨rfl, hc, hx⟩) (.next ⟨rfl, hc, hx⟩)) (.next ⟨rfl, hc, hx⟩)

/-- The operations that need a Response read the receive buffer, below the length. -/
theorem exec_alike_of_needsResponse {i : Instr} (hi : needsResponse i = true) :
    AnswersAlike (exec i s) (exec i (s.withBuffers c x)) := by
  by_cases hd : s.rxState = .done
  · intro s' h
    have hl := rxLen_le_of_exec hi hd h
    obtain ⟨v, p, a, r, e, d, new, -, -, -, hupd⟩ := exec_response i hi s.response
    have hresponse : (s.withBuffers c x).response = s.response := Memory.bytes_congr hx
    rw [hupd s hd hl rfl] at h
    cases h
    exact ⟨_, hupd (s.withBuffers c x) hd hl hresponse, rfl, hc, hx⟩
  · rw [exec_not_done hi hd, exec_not_done hi (s := s.withBuffers c x) hd]
    exact .next ⟨rfl, hc, hx⟩

/-- No operation observes a byte at or above a length, operation by operation. -/
theorem exec_alike (i : Instr) (hs : Memory.wf s.cmd = true) (hs' : Memory.wf s.rx = true) (hwf : Memory.wf c = true)
    (hwf' : Memory.wf x = true) (hbody : s.txPhase = .body → s.txIdx < s.cmdLen) :
    AnswersAlike (exec i s) (exec i (s.withBuffers c x)) := by
  cases i with
  | nop => exact .next ⟨rfl, hc, hx⟩
  | reset => exact .next ⟨rfl, Memory.read_alike_zero _ _, Memory.read_alike_zero _ _⟩
  | crcInit => exact execCrcInit_alike hc hx
  | crcByte b => exact execCrcByte_alike hc hx b
  | crcBit d => exact execCrcBit_alike hc hx d
  | cmdClear => exact execCmdClear_alike hc hx
  | cmdPush b => exact execCmdPush_alike hc hx b hs hwf
  | txStart m => exact execTxStart_alike hc hx m
  | txPop => exact execTxPop_alike hc hx hbody
  | rxClear => exact .next ⟨rfl, hc, Memory.read_alike_zero _ _⟩
  | rxByte b => exact execRxByte_alike hc hx b hs' hwf'
  | rxTimeout => exact execRxTimeout_alike hc hx
  | _ => exact exec_alike_of_needsResponse hc hx rfl

end Alike

end Sys2Proof.Machine
end

section
open Sys2Proof Sys2Proof.Machine

/-! ## The statements -/

/-- Settles O26: the Response stays along the run, and what an operation writes depends on the Response alone. -/
theorem responseIsStable : Obligations.ResponseIsStable := by
  intro ops s t hd hops hrun
  have h := runOps_keeps_capture hd hops hrun
  have hdt : t.rxState = .done := h.rxState.trans hd
  refine ⟨hdt, h.rxEnd, h.rxLen, h.rx, fun i s' t' hi hs' ht' => ?_⟩
  obtain ⟨v, p, a, r, e, d, new, -, -, -, hupd⟩ := exec_response i hi s.response
  rw [hupd s hd (rxLen_le_of_exec hi hd hs') rfl] at hs'
  rw [hupd t hdt (rxLen_le_of_exec hi hdt ht') h.response] at ht'
  cases hs'
  cases ht'
  exact ⟨rfl, rfl, getD_eq_getD_or v _ _, getD_eq_getD_or p _ _, getD_eq_getD_or a _ _, getD_eq_getD_or r _ _⟩

/-- Settles O59: the two buffers of what every operation leaves. -/
theorem onlyPushAndByteWriteTheBuffers : Obligations.OnlyPushAndByteWriteTheBuffers := by
  intro i s t h
  have frame := exec_keeps i s t h
  exact ⟨frame.cmd, frame.rx⟩

/-- Settles O60: the second state is the first with other buffers, and no operation tells them apart. -/
theorem bytesAboveTheLengthAreUnobservable : Obligations.BytesAboveTheLengthAreUnobservable := by
  rintro i s t s' hcmd hrx hcmd' hrx' hbody ⟨rest, hc, hx⟩ h
  rw [rest]
  exact exec_alike hc hx i hcmd hrx hcmd' hrx' hbody s' h

end

/-! The encoding (30_encoding.md): the rows of the opcode map (R61) in both directions, the reserved words (R63), and the layout of a
frame (R65). -/

section
namespace Sys2Proof

/-! ## The rows of the opcode map (R61) -/

/-- The operations without an operand, in the order of their opcodes. -/
def bareOperations : List Instr :=
  [.nop, .reset, .crcInit, .cmdClear, .txPop, .rxClear, .rxTimeout, .validate, .extract, .ackCheck] ++
    [.decProtocolId, .decStatus, .decMode, .decFault, .decSerial, .decFirmware, .decRated, .decModel, .decTime, .decSchedule,
      .decEnergy]

theorem map_opcode_bareOperations : bareOperations.map opcode = Machine.opcodesWithoutOperand := rfl

theorem bareOperations_wellFormed : ∀ i ∈ bareOperations, i.wellFormed = true ∧ operandByte i = 0x00#8 := by decide

/-- A row without an operand: the decoder only checks that the operand field is zero. -/
theorem decode_of_bare {i : Instr} (hi : i ∈ bareOperations) {w : OpWord} (hw : opcodeField w = opcode i) :
    decode w = noOperand (immField w) i := by
  unfold decode
  rw [hw]
  fin_cases hi <;> rfl

/-- The row of `CRC_BIT`. -/
theorem decode_of_crcBit {w : OpWord} (hw : opcodeField w = 0x12#8) : decode w = bitOperand (immField w) := by
  simp [decode, hw]

/-- Every opcode outside the map. -/
theorem decode_of_unknown {w : OpWord} (hbare : opcodeField w ∉ Machine.opcodesWithoutOperand)
    (hoperand : opcodeField w ∉ Machine.opcodesWithOperand) : decode w = .error .unknownOpcode := by
  simp only [Machine.opcodesWithoutOperand, List.cons_append, List.nil_append, List.mem_cons, not_or] at hbare
  simp only [Machine.opcodesWithOperand, List.mem_cons, not_or] at hoperand
  simp [decode, hbare, hoperand]

/-! ## Encoding and decoding (R60 to R62) -/

theorem encode_eq {i : Instr} {w : OpWord} (hop : opcode i = opcodeField w) (himm : operandByte i = immField w) : encode i = w := by
  rw [encode, hop, himm, opcodeField_append_immField]

/-- Row by row: the opcode selects the operation's own row, and its operand passes the check there. -/
theorem decode_encode {i : Instr} (h : i.wellFormed = true) : decode (encode i) = .ok i := by
  have bare (hi : i ∈ bareOperations) : decode (encode i) = .ok i := by
    rw [decode_of_bare hi (opcodeField_encode i), noOperand_eq_ok]
    exact ⟨by simp [bareOperations_wellFormed i hi], rfl⟩
  cases i with
  | crcByte b => simp [decode, opcode, operandByte]
  | crcBit d =>
    rw [decode_of_crcBit (opcodeField_encode _), bitOperand_eq_ok, immField_encode]
    exact ⟨by simpa [Instr.wellFormed, operandByte] using h, rfl⟩
  | cmdPush b => simp [decode, opcode, operandByte]
  | txStart m => simp [decode, opcode, operandByte]
  | rxByte b => simp [decode, opcode, operandByte]
  | _ => exact bare (by decide)

/-! ## Reserved words (R63) -/

theorem decode_of_reserved {w : OpWord} (h : Machine.reservedWord w) : ∃ r, decode w = .error r := by
  obtain ⟨hbare, hoperand⟩ | ⟨hbare, himm⟩ | ⟨hop, himm⟩ := h
  · exact ⟨_, decode_of_unknown hbare hoperand⟩
  · rw [← map_opcode_bareOperations] at hbare
    obtain ⟨i, hi, hop⟩ := List.mem_map.1 hbare
    exact ⟨_, (decode_of_bare hi hop.symm).trans (noOperand_eq_error.2 ⟨himm, rfl⟩)⟩
  · exact ⟨_, (decode_of_crcBit hop).trans (bitOperand_eq_error.2 ⟨himm, rfl⟩)⟩

/-- A word that is not reserved stands for an operation. -/
theorem exists_encode_of_not_reserved {w : OpWord} (h : ¬Machine.reservedWord w) :
    ∃ i : Instr, i.wellFormed = true ∧ encode i = w := by
  simp only [Machine.reservedWord, not_or, not_and, not_not] at h
  obtain ⟨hknown, hbare, hbit⟩ := h
  by_cases hop : opcodeField w ∈ Machine.opcodesWithoutOperand
  · have himm := hbare hop
    rw [← map_opcode_bareOperations] at hop
    obtain ⟨i, hi, hopi⟩ := List.mem_map.1 hop
    obtain ⟨hwf, hzero⟩ := bareOperations_wellFormed i hi
    exact ⟨i, hwf, encode_eq hopi (hzero.trans himm.symm)⟩
  · have hop' := hknown hop
    simp only [Machine.opcodesWithOperand, List.mem_cons, List.not_mem_nil, or_false] at hop'
    obtain h | h | h | h | h := hop'
    · exact ⟨.crcByte (immField w), rfl, encode_eq h.symm rfl⟩
    · exact ⟨.crcBit (immField w), by simpa [Instr.wellFormed] using hbit h, encode_eq h.symm rfl⟩
    · exact ⟨.cmdPush (immField w), rfl, encode_eq h.symm rfl⟩
    · exact ⟨.txStart (immField w), rfl, encode_eq h.symm rfl⟩
    · exact ⟨.rxByte (immField w), rfl, encode_eq h.symm rfl⟩

theorem exists_decode_of_not_reserved {w : OpWord} (h : ¬Machine.reservedWord w) :
    ∃ i : Instr, i.wellFormed = true ∧ encode i = w ∧ decode w = .ok i := by
  obtain ⟨i, hwf, rfl⟩ := exists_encode_of_not_reserved h
  exact ⟨i, hwf, rfl, decode_encode hwf⟩

theorem decode_eq_error_iff {w : OpWord} : (∃ r, decode w = .error r) ↔ Machine.reservedWord w := by
  refine ⟨fun ⟨r, hr⟩ => ?_, decode_of_reserved⟩
  by_contra h
  obtain ⟨i, -, -, hi⟩ := exists_decode_of_not_reserved h
  simp [hi] at hr

theorem encode_of_decode {w : OpWord} {i : Instr} (h : decode w = .ok i) : i.wellFormed = true ∧ encode i = w := by
  have hw : ¬Machine.reservedWord w := fun hr => by
    obtain ⟨r, hr⟩ := decode_of_reserved hr
    simp [h] at hr
  obtain ⟨j, hwf, hj, hdec⟩ := exists_decode_of_not_reserved hw
  obtain rfl : i = j := by simpa [h] using hdec
  exact ⟨hwf, hj⟩

end Sys2Proof
end

section
namespace Sys2Proof.Machine

/-! ## The digits of a length field (R7) -/

theorem digit_toNat {n : Nat} (h : n ≤ 9) : (digit n).toNat = 0x30 + n := by
  simp only [digit_eq, BitVec.toNat_ofNat]
  omega

theorem isDigit_digit {n : Nat} (h : n ≤ 9) : isDigit (digit n) = true := by
  rw [isDigit_iff, digit_toNat h]
  omega

theorem digVal_digit {n : Nat} (h : n ≤ 9) : digVal (digit n) = n := by
  rw [digVal, digit_toNat h]
  omega

theorem allDigits_dec3 {n : Nat} (h : n ≤ 999) : allDigits (dec3 n) = true := by
  simp only [dec3, allDigits, List.all_cons, List.all_nil, Bool.and_true, Bool.and_eq_true]
  exact ⟨isDigit_digit (by omega), isDigit_digit (by omega), isDigit_digit (by omega)⟩

theorem num_dec3 {n : Nat} (h : n ≤ 999) : num (dec3 n) = n := by
  have h100 : digVal (digit (n / 100)) = n / 100 := digVal_digit (by omega)
  have h10 : digVal (digit (n / 10 % 10)) = n / 10 % 10 := digVal_digit (by omega)
  have h1 : digVal (digit (n % 10)) = n % 10 := digVal_digit (by omega)
  simp only [num, dec3, List.foldl_cons, List.foldl_nil, h100, h10, h1]
  omega

/-! ## The parts of a frame (R65, R100) -/

theorem buildFrame_eq_head (m : Byte) (c : ByteString) :
    buildFrame m c = frameHead m c ++ [crcHigh (crc16 (frameHead m c)), crcLow (crc16 (frameHead m c)), 0x0D#8] := rfl

@[simp] theorem buildFrame_length (m : Byte) (c : ByteString) : (buildFrame m c).length = c.length + 8 := by
  simp [buildFrame_eq_head]

theorem buildFrame_take (m : Byte) (c : ByteString) : (buildFrame m c).take (5 + c.length) = frameHead m c :=
  List.take_left' ((frameHead_length m c).trans (Nat.add_comm _ _))

theorem buildFrame_drop (m : Byte) (c : ByteString) :
    (buildFrame m c).drop (5 + c.length) = [crcHigh (crc16 (frameHead m c)), crcLow (crc16 (frameHead m c)), 0x0D#8] :=
  List.drop_left' ((frameHead_length m c).trans (Nat.add_comm _ _))

/-- The length field of a frame. -/
theorem slice_buildFrame_length (m : Byte) (c : ByteString) : slice (buildFrame m c) 2 5 = dec3 (c.length + 3) := rfl

/-- The command of a frame. -/
theorem slice_buildFrame_command (m : Byte) (c : ByteString) : slice (buildFrame m c) 5 (5 + c.length) = c :=
  slice_append ([0x5E#8, m] ++ dec3 (c.length + 3)) c _

end Sys2Proof.Machine
end

section
open Sys2Proof Sys2Proof.Machine

/-! ## The statements -/

/-- Settles O1: the operation's own row of the opcode map accepts its operand. -/
theorem encodedOperationDecodesToItself : Obligations.EncodedOperationDecodesToItself := fun _ => decode_encode

/-- Settles O2: the word is not reserved, so it is the encoding of some operation, and decoding that encoding gives it back. -/
theorem decodedWordEncodesBack : Obligations.DecodedWordEncodesBack := fun _ _ => encode_of_decode

/-- Settles O3: the rejected words are the reserved ones, and a rejected word only reports. -/
theorem reservedWordsReportIllegalOp : Obligations.ReservedWordsReportIllegalOp := fun _ =>
  ⟨decode_eq_error_iff, fun h _ => runWord_next.2 (.inr ⟨decode_of_reserved h, rfl⟩)⟩

/-- Settles O21: the head of the frame has a fixed width up to the command, and the CRC is taken over exactly that head. -/
theorem frameLayout : Obligations.FrameLayout := by
  intro m c hc
  refine ⟨buildFrame_length m c, rfl, rfl, ?_, ?_, slice_buildFrame_command m c, ?_⟩
  · rw [slice_buildFrame_length]
    exact allDigits_dec3 (by omega)
  · rw [slice_buildFrame_length]
    exact num_dec3 (by omega)
  · rintro k rfl
    rw [buildFrame_take]
    exact buildFrame_drop m c

/-- Settles O4: each word is a concrete one, and the decoder evaluates on it. -/
theorem specWordsDecode : Obligations.SpecWordsDecode :=
  ⟨rfl, rfl, rfl, rfl, rfl, rfl, rfl, rfl, rfl, rfl, rfl⟩

end

/-! The CRC unit (40_crc.md): the shift step is linear and loses nothing (R90), so a byte is its eight bits (R93) and a single-bit
difference between two strings stays in the register (R95). -/

section
namespace Sys2Proof.Machine

/-! ## The shift step (R90) -/

/-- The shift step as a shift and a feedback word. -/
theorem crcShift_eq_xor (c : U16) : crcShift c = c >>> 1 ^^^ (if c.getLsbD 0 then 0xA001#16 else 0#16) := by
  unfold crcShift
  split <;> simp [Config.crcPoly]

theorem crcShift_xor (a b : U16) : crcShift (a ^^^ b) = crcShift a ^^^ crcShift b := by
  have hfeedback : (if (a ^^^ b).getLsbD 0 then 0xA001#16 else 0#16) =
      (if a.getLsbD 0 then 0xA001#16 else 0#16) ^^^ (if b.getLsbD 0 then 0xA001#16 else 0#16) := by
    rw [BitVec.getLsbD_xor]
    cases a.getLsbD 0 <;> cases b.getLsbD 0 <;> rfl
  rw [crcShift_eq_xor, crcShift_eq_xor, crcShift_eq_xor, BitVec.ushiftRight_xor_distrib, hfeedback]
  ac_rfl

/-- The polynomial has bit 15 set and a 0 is shifted into bit 15: the bit that left stands there. -/
theorem crcShift_getLsbD_15 (c : U16) : (crcShift c).getLsbD 15 = c.getLsbD 0 := by
  rw [crcShift_eq_xor, BitVec.getLsbD_xor, BitVec.getLsbD_ushiftRight]
  cases c.getLsbD 0 <;> simp

/-- The bit that left is 0, so the step is a plain shift, and every other bit is 0 as well. -/
theorem eq_zero_of_crcShift_eq_zero {c : U16} (h : crcShift c = 0#16) : c = 0#16 := by
  have hbit : c.getLsbD 0 = false := by rw [← crcShift_getLsbD_15, h]; rfl
  have hshift : c >>> 1 = 0#16 := by
    rw [crcShift_eq_xor, hbit] at h
    simpa using h
  refine BitVec.eq_of_getLsbD_eq fun i _ => ?_
  cases i with
  | zero => exact hbit
  | succ j => rw [Nat.add_comm, ← BitVec.getLsbD_ushiftRight, hshift, BitVec.getLsbD_zero, BitVec.getLsbD_zero]

/-- A linear map that sends only 0 to 0. -/
theorem crcShift_injective : Function.Injective crcShift := by
  intro a b h
  rw [← BitVec.xor_eq_zero_iff] at h ⊢
  rw [← crcShift_xor] at h
  exact eq_zero_of_crcShift_eq_zero h

theorem crcShift_bijective : Function.Bijective crcShift := Finite.injective_iff_bijective.1 crcShift_injective

theorem crcShift_iterate_xor (n : Nat) (a b : U16) : crcShift^[n] (a ^^^ b) = crcShift^[n] a ^^^ crcShift^[n] b := by
  induction n generalizing a b with
  | zero => rfl
  | succ n ih => simp only [Function.iterate_succ_apply, crcShift_xor, ih]

/-- A single bit above bit 0 moves down by one, without feedback. -/
theorem crcShift_twoPow_succ {n : Nat} (h : n + 1 < 16) : crcShift (BitVec.twoPow 16 (n + 1)) = BitVec.twoPow 16 n := by
  have hbit : (BitVec.twoPow 16 (n + 1)).getLsbD 0 = false := by simp
  rw [crcShift_eq_xor, hbit]
  refine BitVec.eq_of_getLsbD_eq fun i _ => ?_
  simp [BitVec.getLsbD_ushiftRight, Nat.add_comm 1, h, Nat.lt_of_succ_lt h]

theorem crcShift_iterate_twoPow {n : Nat} (h : n < 16) : crcShift^[n] (BitVec.twoPow 16 n) = 1#16 := by
  induction n with
  | zero => rfl
  | succ n ih => rw [Function.iterate_succ_apply, crcShift_twoPow_succ h, ih (by omega)]

/-! ## The byte step and the bit step (R92, R93) -/

theorem crcByte_eq_iterate (c : U16) (b : Byte) : crcByte c b = crcShift^[8] (c ^^^ b.setWidth 16) := rfl

theorem crcByte_injective_register (b : Byte) : Function.Injective (crcByte · b) := by
  intro c c' h
  simpa using crcShift_injective.iterate 8 h

theorem crcByte_injective_byte (c : U16) : Function.Injective (crcByte c) := by
  intro b b' h
  have hwide : b.setWidth 16 = b'.setWidth 16 := by simpa using crcShift_injective.iterate 8 h
  simpa using congrArg (BitVec.setWidth 8) hwide

/-- One more low bit of a byte, as a summand. -/
theorem setWidth_succ_eq_xor (b : Byte) (n : Nat) :
    (b.setWidth (n + 1)).setWidth 16 = (b.setWidth n).setWidth 16 ^^^ (if b.getLsbD n then BitVec.twoPow 16 n else 0#16) := by
  refine BitVec.eq_of_getLsbD_eq fun i hi => ?_
  obtain hlt | rfl | hgt := Nat.lt_trichotomy i n
  · cases b.getLsbD n <;> simp [hi, hlt, hlt.ne, Nat.lt_succ_of_lt hlt]
  · cases hb : b.getLsbD i <;> simp [hi, hb]
  · cases b.getLsbD n <;> simp [hgt.ne, hgt.not_gt, show ¬i < n + 1 by omega]

/-- Bit `n` meets the register after `n` shifts, where those shifts have moved bit `n` of the byte to bit 0. -/
theorem foldl_crcBit_range (c : U16) (b : Byte) {n : Nat} (h : n ≤ 16) :
    (List.range n).foldl (fun r k => crcBit r (b.getLsbD k)) c = crcShift^[n] (c ^^^ (b.setWidth n).setWidth 16) := by
  induction n with
  | zero => simp [BitVec.of_length_zero]
  | succ n ih =>
    have hbit : crcShift^[n] (if b.getLsbD n then BitVec.twoPow 16 n else 0#16) = if b.getLsbD n then 1#16 else 0#16 := by
      split
      · exact crcShift_iterate_twoPow h
      · exact Function.iterate_fixed rfl n
    rw [List.range_succ, List.foldl_concat, ih (by omega), setWidth_succ_eq_xor, ← BitVec.xor_assoc,
      Function.iterate_succ_apply', crcShift_iterate_xor n (c ^^^ _), hbit, crcBit]

theorem crcByte_eq_foldl_crcBit (c : U16) (b : Byte) :
    crcByte c b = (List.range 8).foldl (fun r k => crcBit r (b.getLsbD k)) c := by
  rw [foldl_crcBit_range c b (by decide), BitVec.setWidth_eq, crcByte_eq_iterate]

/-! ## The three operations (R91 to R93) -/

theorem exec_crcInit (s : State) :
    exec .crcInit s = whenNotBusy .crcInit s fun s => .next (succeed { s with crc := 0xFFFF#16 }) := rfl

theorem exec_crcByte (b : Byte) (s : State) :
    exec (.crcByte b) s = whenNotBusy (.crcByte b) s fun s => .next (succeed { s with crc := crcByte s.crc b }) := rfl

theorem exec_crcBit (d : Byte) (s : State) :
    exec (.crcBit d) s = whenNotBusy (.crcBit d) s fun s => .next (succeed { s with crc := crcBit s.crc (d.getLsbD 0) }) := rfl

/-- The operand is the data bit: its bits 7..1 are 0 (30_encoding.md R62). -/
theorem operand_of_wellFormed_crcBit {d : Byte} (h : (Instr.crcBit d).wellFormed = true) : d = 0#8 ∨ d = 1#8 := by
  have hhigh : d.extractLsb' 1 7 = 0#7 := by simpa [Instr.wellFormed] using h
  have hnat := congrArg BitVec.toNat hhigh
  rw [BitVec.extractLsb'_toNat, Nat.shiftRight_eq_div_pow] at hnat
  bv_omega

theorem crcBit_eq_of_wellFormed {d : Byte} (h : (Instr.crcBit d).wellFormed = true) (c : U16) :
    crcBit c (d.getLsbD 0) = crcShift (c ^^^ d.setWidth 16) := by
  obtain rfl | rfl := operand_of_wellFormed_crcBit h <;> rfl

/-! ## The checksum (R94, R95) -/

theorem crc16_append (s t : ByteString) : crc16 (s ++ t) = t.foldl crcByte (crc16 s) := by
  rw [crc16_eq, crc16_eq, List.foldl_append]

/-- A difference in the register is never lost. -/
theorem foldl_crcByte_injective (t : ByteString) : Function.Injective (t.foldl crcByte) := by
  induction t with
  | nil => exact Function.injective_id
  | cons b t ih => exact ih.comp (crcByte_injective_register b)

theorem crc16_ne_of_byte_ne (pre post : ByteString) {b b' : Byte} (h : b ≠ b') :
    crc16 (pre ++ b :: post) ≠ crc16 (pre ++ b' :: post) := by
  rw [crc16_append, crc16_append]
  exact fun heq => h (crcByte_injective_byte _ (foldl_crcByte_injective post heq))

theorem ne_xor_bit (b : Byte) {k : Nat} (h : k < 8) : b ≠ b ^^^ (1#8 <<< k) := by
  intro heq
  have hk : b.getLsbD k = (b ^^^ (1#8 <<< k)).getLsbD k := congrArg (BitVec.getLsbD · k) heq
  simp [h] at hk

/-- A register that holds just the byte is cleared by it. -/
theorem crcByte_setWidth_self (b : Byte) : crcByte (b.setWidth 16) b = 0#16 := by
  rw [crcByte_eq_iterate, BitVec.xor_self]
  exact Function.iterate_fixed rfl 8

/-- Two bytes 0xFF clear the initial register, and a cleared register does not see a byte 0x00. -/
theorem crc16_collision : crc16 [0xFF#8, 0xFF#8] = crc16 [0xFF#8, 0xFF#8, 0x00#8] := by
  have hfirst : crcByte 0xFFFF#16 0xFF#8 = (0xFF#8).setWidth 16 := by decide
  have hclear : crc16 [0xFF#8, 0xFF#8] = 0#16 := by
    rw [crc16_eq, List.foldl_cons, hfirst]
    exact crcByte_setWidth_self 0xFF#8
  have hblind : crc16 ([0xFF#8, 0xFF#8] ++ [0x00#8]) = 0#16 := by
    rw [crc16_append, hclear]
    exact crcByte_setWidth_self 0x00#8
  exact hclear.trans hblind.symm

end Sys2Proof.Machine
end

section
open Sys2Proof Sys2Proof.Machine

/-! ## The statements -/

/-- Settles O10: the step is linear and sends only 0 to 0, hence a bijection of a finite set. -/
theorem crcShiftIsALinearBijection : Obligations.CrcShiftIsALinearBijection :=
  ⟨fun _ => rfl, crcShift_xor, crcShift_bijective, rfl, rfl, rfl, rfl⟩

/-- Settles O13: by linearity the bits of a byte may meet the register one by one, each when the shifts have brought it to bit 0. -/
theorem crcBitsMakeAByte : Obligations.CrcBitsMakeAByte := by
  refine ⟨fun s d hd => ?_, crcByte_eq_foldl_crcBit⟩
  rw [← crcBit_eq_of_wellFormed hd, exec_crcBit]
  exact ⟨whenNotBusy_idle, whenNotBusy_busy⟩

/-- Settles O14: the byte step is injective in the byte and in the register, so a changed bit reaches the checksum. -/
theorem checksumSeesEverySingleBit : Obligations.ChecksumSeesEverySingleBit :=
  ⟨rfl, crc16_append, fun pre post b _ hk => crc16_ne_of_byte_ne pre post (ne_xor_bit b hk),
    [0xFF#8, 0xFF#8], [0xFF#8, 0xFF#8, 0x00#8], by decide, crc16_collision⟩

/-- Settles O11: the guard of R16, and the initial value behind it. -/
theorem crcInitSetsTheInitialValue : Obligations.CrcInitSetsTheInitialValue := by
  intro s
  rw [exec_crcInit]
  exact ⟨whenNotBusy_idle, whenNotBusy_busy⟩

/-- Settles O12: the guard of R16, and the byte step behind it. -/
theorem crcByteShiftsEightTimes : Obligations.CrcByteShiftsEightTimes := by
  intro s b
  rw [← crcByte_eq_iterate, exec_crcByte]
  exact ⟨whenNotBusy_idle, whenNotBusy_busy⟩

end

/-! The frame builder (41_frame_builder.md): each of its operations as one update of the state (R102 to R112), the frame as the bytes
that `TX_POP` emits one after another (R113), and from both that every step keeps the frame under construction. -/

section
namespace Sys2Proof.Machine

/-! ## The command and the start of a frame (R102 to R104) -/

theorem exec_cmdClear (s : State) :
    exec .cmdClear s =
      whenNotBusy .cmdClear s fun s => .next (succeed { s with cmdLen := 0, cmdOvf := false, cmdBad := false }) := rfl

theorem exec_cmdPush (b : Byte) (s : State) : exec (.cmdPush b) s = execCmdPush b s := rfl

theorem exec_cmdPush_room {s : State} (b : Byte) (h : s.txPhase = .idle) (room : s.cmdLen < 996) :
    exec (.cmdPush b) s = .next { s with
      cmd := Memory.write s.cmd s.cmdLen b, cmdLen := s.cmdLen + 1, cmdBad := s.cmdBad || notAscii b, err := .none,
      errInfo := .none } := by
  rw [exec_cmdPush, execCmdPush, whenNotBusy_idle h, Config.cmdMax, if_pos room, succeed]

theorem exec_cmdPush_full {s : State} (b : Byte) (h : s.txPhase = .idle) (full : 996 ≤ s.cmdLen) :
    exec (.cmdPush b) s = .next { s with cmdOvf := true, err := .caller, errInfo := .cmdTooLong } := by
  rw [exec_cmdPush, execCmdPush, whenNotBusy_idle h, Config.cmdMax, if_neg (Nat.not_lt.2 full), callerError_eq]

theorem exec_cmdPush_busy {s : State} (b : Byte) (h : s.txPhase ≠ .idle) :
    exec (.cmdPush b) s = .next { s with err := .caller, errInfo := .busy } := by
  rw [exec_cmdPush, execCmdPush, whenNotBusy_busy h]

/-- The state in which a successful `TX_START` leaves the builder. -/
def State.started (m : Byte) (s : State) : State :=
  { s with txMarker := m, txIdx := 0, crc := 0xFFFF#16, txStream := [], txPhase := .m0, err := .none, errInfo := .none }

/-- `TX_START` with its four checks in the order of R104. -/
theorem exec_txStart (m : Byte) (s : State) :
    exec (.txStart m) s = .next
      (if s.txPhase ≠ .idle then { s with err := .caller, errInfo := .busy }
       else if isMarker m = false then { s with err := .caller, errInfo := .badMarker }
       else if s.cmdOvf = true then { s with err := .caller, errInfo := .cmdTooLong }
       else if s.cmdBad = true then { s with err := .caller, errInfo := .cmdNotAscii }
       else s.started m) := by
  rw [exec, execTxStart]
  by_cases h : s.txPhase = .idle
  · rw [whenNotBusy_idle h, if_neg (not_not.2 h)]
    simp only [callerError_eq, apply_ite (Host.Outcome.next (φ := Fault) (ρ := Refusal))]
    rfl
  · rw [whenNotBusy_busy h, if_pos h]

/-- What `TX_START` can do: it refuses, or all four checks pass and the frame is started. -/
theorem exec_txStart_next {m : Byte} {s t : State} (h : exec (.txStart m) s = .next t) :
    (∃ d, t = { s with err := .caller, errInfo := d }) ∨
      (isMarker m = true ∧ s.cmdOvf = false ∧ s.cmdBad = false ∧ t = s.started m) := by
  rw [exec_txStart] at h
  cases h
  split
  · exact .inl ⟨_, rfl⟩
  split
  · exact .inl ⟨_, rfl⟩
  split
  · exact .inl ⟨_, rfl⟩
  split
  · exact .inl ⟨_, rfl⟩
  next _ hm ho hb => exact .inr ⟨by simpa using hm, by simpa using ho, by simpa using hb, rfl⟩

/-! ## The next byte (R105 to R112) -/

/-- `TX_POP` in a state whose phase is known: the phase's own rule. -/
theorem exec_txPop_of_phase {s : State} {p : TxPhase} (h : s.txPhase = p) : exec .txPop s = execTxPop { s with txPhase := p } := by
  subst h
  rfl

theorem exec_txPop_idle {s : State} (h : s.txPhase = .idle) :
    exec .txPop s = .next { s with err := .caller, errInfo := .txIdle } := by
  simp only [exec, execTxPop, h, callerError_eq]

/-- A command byte, as the byte of phase `BODY` that is emitted before `tx_idx` moves on. -/
theorem exec_txPop_body {s : State} (h : s.txPhase = .body) (hi : s.txIdx < 996) :
    exec .txPop s = .next { emitCovered (Memory.read s.cmd s.txIdx) (if s.txIdx + 1 = s.cmdLen then .crch else .body) s with
      txIdx := s.txIdx + 1 } := by
  rw [exec_txPop_of_phase h]
  exact popBody_eq (s := { s with txPhase := .body }) hi

theorem exec_txPop_crch {s : State} (h : s.txPhase = .crch) : exec .txPop s = .next (emitTrailer (crcHigh s.crc) .crcl s) := by
  simp only [exec, execTxPop, h, crcResult_eq]

theorem exec_txPop_crcl {s : State} (h : s.txPhase = .crcl) : exec .txPop s = .next (emitTrailer (crcLow s.crc) .term s) := by
  simp only [exec, execTxPop, h, crcResult_eq]

/-! ## The registers of the builder -/

/-- The command held and the marker of its frame. -/
structure Loaded where
  cmd : Memory
  cmdLen : Nat
  cmdOvf : Bool
  cmdBad : Bool
  txMarker : Byte

/-- The registers that the frame builder reads. -/
structure BuilderRegs extends Loaded where
  crc : U16
  txPhase : TxPhase
  txIdx : Nat
  txStream : ByteString

/-- The command held and the marker, in a state. -/
def State.loaded (s : State) : Loaded :=
  { cmd := s.cmd, cmdLen := s.cmdLen, cmdOvf := s.cmdOvf, cmdBad := s.cmdBad, txMarker := s.txMarker }

/-- The registers of the builder, in a state. -/
def State.builderRegs (s : State) : BuilderRegs :=
  { s.loaded with crc := s.crc, txPhase := s.txPhase, txIdx := s.txIdx, txStream := s.txStream }

theorem command_of_loaded {s t : State} (h : t.loaded = s.loaded) : t.command = s.command :=
  congrArg (fun l : Loaded => Memory.bytes l.cmd l.cmdLen) h

/-- The invariant speaks of these registers alone. -/
theorem BuilderOk.of_builderRegs {s t : State} (hs : BuilderOk s) (h : t.builderRegs = s.builderRegs) : BuilderOk t := by
  cases s
  cases t
  cases h
  exact { hs with }

/-- A frame under construction: what `BuilderOk` says of the registers that `TX_POP` goes on from. -/
structure InFrame (s : State) : Prop where
  busy : s.txPhase ≠ .idle
  index : indexOk s
  stream : s.txStream = (buildFrame s.txMarker s.command).take (emittedCount s)
  checksum : s.crc = ((frameHead s.txMarker s.command).take (emittedCount s)).foldl crcByte 0xFFFF#16

theorem BuilderOk.inFrame {s : State} (hs : BuilderOk s) (h : s.txPhase ≠ .idle) : InFrame s :=
  ⟨h, hs.index, hs.stream h, hs.checksum h⟩

theorem InFrame.of_builderRegs {s t : State} (hs : InFrame s) (h : t.builderRegs = s.builderRegs) : InFrame t := by
  cases s
  cases t
  cases h
  exact { hs with }

/-- Nothing has been emitted yet. -/
theorem inFrame_started (m : Byte) (s : State) : InFrame (s.started m) := ⟨nofun, rfl, rfl, rfl⟩

/-! ## The bytes of a frame by their place (R106 to R112) -/

theorem frameHead_command (m : Byte) (s : State) :
    frameHead m s.command = [0x5E#8, m] ++ dec3 (totalLength s.cmdLen) ++ s.command := by
  rw [frameHead, State.command_length]

theorem frameHead_getElem?_command (m : Byte) {s : State} {i : Nat} (h : i < s.cmdLen) :
    (frameHead m s.command)[5 + i]? = some (Memory.read s.cmd i) := by
  rw [frameHead_command, List.getElem?_append_right (Nat.le_add_right 5 i)]
  exact (congrArg (s.command[·]?) (Nat.add_sub_cancel_left 5 i)).trans (Memory.bytes_getElem? s.cmd h)

theorem buildFrame_getElem?_head {m : Byte} {c : ByteString} {n : Nat} {b : Byte} (h : (frameHead m c)[n]? = some b) :
    (buildFrame m c)[n]? = some b := by
  obtain ⟨hn, -⟩ := List.getElem?_eq_some_iff.1 h
  rw [buildFrame_eq_head, List.getElem?_append_left hn, h]

theorem buildFrame_getElem?_trailer (m : Byte) (c : ByteString) (k : Nat) :
    (buildFrame m c)[5 + c.length + k]? = [crcHigh (crc16 (frameHead m c)), crcLow (crc16 (frameHead m c)), 0x0D#8][k]? := by
  rw [← buildFrame_drop, List.getElem?_drop]

/-- After the header and the body the CRC register is the checksum that the trailer holds. -/
theorem InFrame.crc_eq {s : State} (hs : InFrame s) (h : 5 + s.cmdLen ≤ emittedCount s) :
    s.crc = crc16 (frameHead s.txMarker s.command) := by
  rw [hs.checksum, List.take_of_length_le, crc16_eq]
  rw [frameHead_length, State.command_length]
  omega

/-! ## One byte of a frame (R113) -/

/-- The state `t` that a `TX_POP` leaves when a frame is under construction in `s`. -/
structure Popped (s t : State) : Prop where
  loaded : t.loaded = s.loaded
  err : t.err = .none
  index : indexOk t
  byte : ∃ b, (buildFrame s.txMarker s.command)[emittedCount s]? = some b ∧ t.txStream = s.txStream ++ [b] ∧
    t.crc = if emittedCount s < 5 + s.cmdLen then crcByte s.crc b else s.crc
  next : (t.txPhase ≠ .idle ∧ emittedCount t = emittedCount s + 1) ∨ (t.txPhase = .idle ∧ emittedCount s = 7 + s.cmdLen)

theorem emittedCount_of_phase {s : State} {p : TxPhase} (h : s.txPhase = p) :
    emittedCount s = emittedCount { s with txPhase := p } := by
  subst h
  rfl

theorem indexOk_of_phase {s : State} {p : TxPhase} (h : s.txPhase = p) : indexOk s = indexOk { s with txPhase := p } := by
  subst h
  rfl

/-- A byte that the CRC covers takes the frame one byte further. -/
theorem popped_covered {s : State} {b : Byte} {p : TxPhase} {i n : Nat} (hn : emittedCount s = n)
    (hb : (frameHead s.txMarker s.command)[n]? = some b) (hp : p ≠ .idle)
    (hi : indexOk { emitCovered b p s with txIdx := i }) (hc : emittedCount { emitCovered b p s with txIdx := i } = n + 1) :
    Popped s { emitCovered b p s with txIdx := i } where
  loaded := rfl
  err := rfl
  index := hi
  byte := by
    obtain ⟨hlt, -⟩ := List.getElem?_eq_some_iff.1 hb
    rw [frameHead_length, State.command_length] at hlt
    exact ⟨b, hn ▸ buildFrame_getElem?_head hb, rfl, (if_pos (by omega)).symm⟩
  next := .inl ⟨hp, by rw [hc, hn]⟩

/-- A byte of the trailer takes the frame one byte further, or ends it. -/
theorem popped_trailer {s : State} {b : Byte} {p : TxPhase} {k : Nat} (hs : InFrame s) (hn : emittedCount s = 5 + s.cmdLen + k)
    (hb : [crcHigh s.crc, crcLow s.crc, 0x0D#8][k]? = some b) (hi : indexOk (emitTrailer b p s))
    (hc : (p ≠ .idle ∧ emittedCount (emitTrailer b p s) = emittedCount s + 1) ∨ (p = .idle ∧ k = 2)) :
    Popped s (emitTrailer b p s) where
  loaded := rfl
  err := rfl
  index := hi
  byte := by
    rw [hs.crc_eq (by omega), ← buildFrame_getElem?_trailer, State.command_length, ← hn] at hb
    exact ⟨b, hb, rfl, (if_neg (by omega)).symm⟩
  next := hc.imp_right fun ⟨hp, hk⟩ => ⟨hp, by omega⟩

/-- The last digit of the length field: the command follows, if there is one. -/
theorem InFrame.pop_l0 {s : State} (hs : InFrame s) (hp : s.txPhase = .l0) : ∃ t, exec .txPop s = .next t ∧ Popped s t := by
  have hindex : s.txIdx = 0 := (indexOk_of_phase hp).mp hs.index
  have hcount : emittedCount s = 4 := emittedCount_of_phase hp
  have hbyte : (frameHead s.txMarker s.command)[4]? = some (digit (totalLength s.cmdLen % 10)) := by
    rw [frameHead_command]
    rfl
  have hexec : exec .txPop s = .next (emitCovered (digit (totalLength s.cmdLen % 10)) (if s.cmdLen = 0 then .crch else .body) s) :=
    exec_txPop_of_phase hp
  by_cases hempty : s.cmdLen = 0
  · rw [if_pos hempty] at hexec
    exact ⟨_, hexec, popped_covered (i := s.txIdx) hcount hbyte nofun (hindex.trans hempty.symm) (congrArg (5 + ·) hempty)⟩
  · rw [if_neg hempty] at hexec
    exact ⟨_, hexec, popped_covered (i := s.txIdx) hcount hbyte nofun (hindex.trans_lt (Nat.pos_of_ne_zero hempty))
      (congrArg (5 + ·) hindex)⟩

/-- A command byte: the CRC follows the last one. -/
theorem InFrame.pop_body {s : State} (hs : InFrame s) (hle : s.cmdLen ≤ 996) (hp : s.txPhase = .body) :
    ∃ t, exec .txPop s = .next t ∧ Popped s t := by
  have hindex : s.txIdx < s.cmdLen := (indexOk_of_phase hp).mp hs.index
  have hcount : emittedCount s = 5 + s.txIdx := emittedCount_of_phase hp
  have hbyte := frameHead_getElem?_command s.txMarker hindex
  have hexec := exec_txPop_body hp (hindex.trans_le hle)
  by_cases hlast : s.txIdx + 1 = s.cmdLen
  · rw [if_pos hlast] at hexec
    exact ⟨_, hexec, popped_covered hcount hbyte nofun hlast (congrArg (5 + ·) hlast.symm)⟩
  · rw [if_neg hlast] at hexec
    exact ⟨_, hexec, popped_covered hcount hbyte nofun (Nat.lt_of_le_of_ne hindex hlast) rfl⟩

/-- Phase by phase, `TX_POP` emits the byte of the frame whose turn it is. -/
theorem InFrame.pop {s : State} (hs : InFrame s) (hle : s.cmdLen ≤ 996) : ∃ t, exec .txPop s = .next t ∧ Popped s t := by
  have hhead := frameHead_command s.txMarker s
  have hindex := hs.index
  cases hp : s.txPhase <;> rw [indexOk_of_phase hp] at hindex
  case idle => exact absurd hp hs.busy
  case m0 | m1 | l2 | l1 =>
    exact ⟨_, exec_txPop_of_phase hp,
      popped_covered (i := s.txIdx) (emittedCount_of_phase hp) (by rw [hhead]; rfl) nofun hindex rfl⟩
  case l0 => exact hs.pop_l0 hp
  case body => exact hs.pop_body hle hp
  case crch =>
    have hcount : emittedCount s = 5 + s.cmdLen := emittedCount_of_phase hp
    have hnext : 6 + s.cmdLen = emittedCount s + 1 := by omega
    exact ⟨_, exec_txPop_crch hp, popped_trailer (k := 0) hs hcount rfl hindex (.inl ⟨nofun, hnext⟩)⟩
  case crcl =>
    have hcount : emittedCount s = 6 + s.cmdLen := emittedCount_of_phase hp
    have hnext : 7 + s.cmdLen = emittedCount s + 1 := by omega
    exact ⟨_, exec_txPop_crcl hp, popped_trailer (k := 1) hs (by omega) rfl hindex (.inl ⟨nofun, hnext⟩)⟩
  case term =>
    have hcount : emittedCount s = 7 + s.cmdLen := emittedCount_of_phase hp
    have hidle : s.txIdx ≤ 996 := hindex.trans_le hle
    exact ⟨_, exec_txPop_of_phase hp, popped_trailer (k := 2) hs (by omega) rfl hidle (.inr ⟨rfl, rfl⟩)⟩

theorem Popped.stream {s t : State} (h : Popped s t) (hs : InFrame s) :
    t.txStream = (buildFrame s.txMarker s.command).take (emittedCount s + 1) := by
  obtain ⟨b, hb, hstream, -⟩ := h.byte
  rw [hstream, hs.stream, List.take_add_one, hb]
  rfl

theorem Popped.crc {s t : State} (h : Popped s t) (hs : InFrame s) :
    t.crc = ((frameHead s.txMarker s.command).take (emittedCount s + 1)).foldl crcByte 0xFFFF#16 := by
  obtain ⟨b, hb, -, hcrc⟩ := h.byte
  have hlen : (frameHead s.txMarker s.command).length = s.cmdLen + 5 := by simp
  rw [hcrc, hs.checksum]
  split
  next hlt =>
    rw [buildFrame_eq_head, List.getElem?_append_left (by omega)] at hb
    rw [List.take_add_one, hb, List.foldl_append]
    rfl
  next hge => rw [List.take_of_length_le (by omega), List.take_of_length_le (by omega)]

/-- Unless it was the last byte, the frame is still under construction. -/
theorem Popped.inFrame {s t : State} (h : Popped s t) (hs : InFrame s) (hbusy : t.txPhase ≠ .idle) : InFrame t := by
  have hmarker : t.txMarker = s.txMarker := congrArg Loaded.txMarker h.loaded
  have hcount : emittedCount t = emittedCount s + 1 := h.next.elim And.right fun ⟨hidle, _⟩ => absurd hidle hbusy
  refine ⟨hbusy, h.index, ?_, ?_⟩ <;> rw [hmarker, command_of_loaded h.loaded, hcount]
  · exact h.stream hs
  · exact h.crc hs

/-- The last byte completes the frame. -/
theorem Popped.whole {s t : State} (h : Popped s t) (hs : InFrame s) (hidle : t.txPhase = .idle) :
    t.txStream = buildFrame s.txMarker s.command := by
  have hcount : emittedCount s = 7 + s.cmdLen := h.next.elim (fun ⟨hbusy, _⟩ => absurd hidle hbusy) And.right
  rw [h.stream hs, List.take_of_length_le]
  rw [buildFrame_length, State.command_length]
  omega

/-! ## Every operation keeps the frame under construction -/

theorem BuilderOk.index_le {s : State} (hs : BuilderOk s) (h : s.txPhase = .idle) : s.txIdx ≤ 996 :=
  (indexOk_of_phase h).mp hs.index

/-- Without a frame under construction the invariant speaks of the command and the marker alone. -/
theorem BuilderOk.of_idle {s : State} (hidle : s.txPhase = .idle) (marker : isMarker s.txMarker = true)
    (bad : s.cmdBad = s.command.any notAscii) (ovf : s.cmdOvf = true → s.cmdLen = 996) (index : s.txIdx ≤ 996) : BuilderOk s :=
  ⟨marker, bad, ovf, absurd hidle, (indexOk_of_phase hidle).mpr index, absurd hidle, absurd hidle⟩

/-- The guard of R16: its refusal writes no register of the builder, and behind it no frame is under construction. -/
theorem BuilderOk.of_whenNotBusy {i : Instr} {s t : State} {k : State → Result} (hs : BuilderOk s)
    (h : whenNotBusy i s k = .next t) (hk : s.txPhase = .idle → k s = .next t → BuilderOk t) : BuilderOk t := by
  rcases whenNotBusy_next.1 h with ⟨hidle, h⟩ | ⟨-, rfl⟩
  · exact hk hidle h
  · exact hs.of_builderRegs rfl

/-- The CRC unit behind its guard: the register covers no frame. -/
theorem BuilderOk.of_crc {i : Instr} {s t : State} {f : State → U16} (hs : BuilderOk s)
    (h : whenNotBusy i s (fun s => .next (succeed { s with crc := f s })) = .next t) : BuilderOk t := by
  refine hs.of_whenNotBusy h fun hidle h => ?_
  cases h
  exact .of_idle hidle hs.marker hs.bad hs.ovf (hs.index_le hidle)

theorem execCmdClear_keeps_builder {s t : State} (hs : BuilderOk s) (h : exec .cmdClear s = .next t) : BuilderOk t := by
  rw [exec_cmdClear] at h
  refine hs.of_whenNotBusy h fun hidle h => ?_
  cases h
  exact .of_idle hidle hs.marker rfl nofun (hs.index_le hidle)

/-- The byte pushed is the last of the command, and a command buffer with room was not overrun. -/
theorem execCmdPush_keeps_builder {b : Byte} {s t : State} (hb : BuffersOk s) (hs : BuilderOk s)
    (h : exec (.cmdPush b) s = .next t) : BuilderOk t := by
  by_cases hidle : s.txPhase = .idle
  · by_cases room : s.cmdLen < 996
    · rw [exec_cmdPush_room b hidle room] at h
      cases h
      have hbad : (s.cmdBad || notAscii b) = (Memory.bytes (Memory.write s.cmd s.cmdLen b) (s.cmdLen + 1)).any notAscii := by
        rw [Memory.bytes_write_end hb.cmd_wf, List.any_append, hs.bad, State.command, List.any_cons, List.any_nil, Bool.or_false]
      exact .of_idle hidle hs.marker hbad (fun hovf => absurd (hs.ovf hovf) room.ne) (hs.index_le hidle)
    · rw [exec_cmdPush_full b hidle (Nat.not_lt.1 room)] at h
      cases h
      exact .of_idle hidle hs.marker hs.bad (fun _ => Nat.le_antisymm hb.cmdLen_le (Nat.not_lt.1 room)) (hs.index_le hidle)
  · rw [exec_cmdPush_busy b hidle] at h
    cases h
    exact hs.of_builderRegs rfl

/-- A frame is started for a marker and a command that passed the checks. -/
theorem execTxStart_keeps_builder {m : Byte} {s t : State} (hs : BuilderOk s) (h : exec (.txStart m) s = .next t) :
    BuilderOk t := by
  rcases exec_txStart_next h with ⟨d, rfl⟩ | ⟨hmarker, hovf, hbad, rfl⟩
  · exact hs.of_builderRegs rfl
  · exact ⟨hmarker, hs.bad, hs.ovf, fun _ => ⟨hovf, hbad⟩, rfl, fun _ => rfl, fun _ => rfl⟩

/-- One byte more of the frame, or its last. -/
theorem Popped.builderOk {s t : State} (h : Popped s t) (hs : BuilderOk s) (hbusy : s.txPhase ≠ .idle) : BuilderOk t := by
  have hframe := h.inFrame (hs.inFrame hbusy)
  have hmarker : t.txMarker = s.txMarker := congrArg Loaded.txMarker h.loaded
  have hlen : t.cmdLen = s.cmdLen := congrArg Loaded.cmdLen h.loaded
  have hovf : t.cmdOvf = s.cmdOvf := congrArg Loaded.cmdOvf h.loaded
  have hbad : t.cmdBad = s.cmdBad := congrArg Loaded.cmdBad h.loaded
  refine ⟨hmarker ▸ hs.marker, ?_, ?_, ?_, h.index, fun h => (hframe h).stream, fun h => (hframe h).checksum⟩
  · rw [hbad, command_of_loaded h.loaded, hs.bad]
  · rw [hovf, hlen]
    exact hs.ovf
  · rw [hovf, hbad]
    exact fun _ => hs.clean hbusy

theorem execTxPop_keeps_builder {s t : State} (hb : BuffersOk s) (hs : BuilderOk s) (h : exec .txPop s = .next t) :
    BuilderOk t := by
  by_cases hidle : s.txPhase = .idle
  · rw [exec_txPop_idle hidle] at h
    cases h
    exact hs.of_builderRegs rfl
  · obtain ⟨u, hu, hpop⟩ := (hs.inFrame hidle).pop hb.cmdLen_le
    rw [hu] at h
    cases h
    exact hpop.builderOk hs hidle

/-! ## The operations outside the builder (R113) -/

theorem storeByte_builderRegs (b : Byte) (s : State) : (storeByte b s).builderRegs = s.builderRegs := by
  rw [storeByte_eq]
  rfl

theorem exec_builderRegs_of_needsResponse {i : Instr} (hi : needsResponse i = true) {s t : State} (h : exec i s = .next t) :
    t.builderRegs = s.builderRegs := by
  by_cases hd : s.rxState = .done
  · obtain ⟨v, p, a, r, e, d, new, -, -, -, hupd⟩ := exec_response i hi s.response
    rw [hupd s hd (rxLen_le_of_exec hi hd h) rfl] at h
    cases h
    rfl
  · rw [exec_not_done hi hd] at h
    cases h
    rfl

/-- The operations outside the builder write none of its registers. -/
theorem exec_builderRegs {i : Instr} (hi : outsideBuilder i = true) {s t : State} (h : exec i s = .next t) :
    t.builderRegs = s.builderRegs := by
  cases i with
  | nop | rxClear =>
    cases h
    rfl
  | rxByte b =>
    simp only [exec, execRxByte] at h
    repeat' split at h
    all_goals cases h
    · exact storeByte_builderRegs b s
    · rfl
  | rxTimeout =>
    simp only [exec, execRxTimeout] at h
    repeat' split at h
    all_goals cases h; rfl
  | reset | crcInit | crcByte | crcBit | cmdClear | cmdPush | txStart | txPop => cases hi
  | _ => exact exec_builderRegs_of_needsResponse rfl h

/-- Operation by operation, the builder's invariant is kept. -/
theorem exec_keeps_builder {i : Instr} {s t : State} (hb : BuffersOk s) (hs : BuilderOk s) (h : exec i s = .next t) :
    BuilderOk t := by
  cases i with
  | reset =>
    cases h
    exact .of_idle rfl rfl rfl nofun (Nat.zero_le _)
  | crcInit => exact hs.of_crc ((exec_crcInit s).symm.trans h)
  | crcByte b => exact hs.of_crc ((exec_crcByte b s).symm.trans h)
  | crcBit d => exact hs.of_crc ((exec_crcBit d s).symm.trans h)
  | cmdClear => exact execCmdClear_keeps_builder hs h
  | cmdPush b => exact execCmdPush_keeps_builder hb hs h
  | txStart m => exact execTxStart_keeps_builder hs h
  | txPop => exact execTxPop_keeps_builder hb hs h
  | _ => exact hs.of_builderRegs (exec_builderRegs rfl h)

/-! ## The whole frame (R113) -/

theorem runOps_append_next {xs ys : List Instr} {s t : State} :
    runOps (xs ++ ys) s = .next t ↔ ∃ u, runOps xs s = .next u ∧ runOps ys u = .next t := by
  induction xs generalizing s with
  | nil => simp [runOps]
  | cons i xs ih =>
    simp only [List.cons_append, runOps_cons_next, ih]
    grind

/-- Fewer bytes than the frame has are out while it is under construction. -/
theorem InFrame.emittedCount_lt {s : State} (hs : InFrame s) : emittedCount s < s.cmdLen + 8 := by
  have hindex := hs.index
  have hbusy := hs.busy
  cases hp : s.txPhase <;> simp only [indexOk, emittedCount, hp, ne_eq, not_true_eq_false] at hindex hbusy ⊢ <;> omega

/-- `k` bytes of the frame of `m` and `c` are out: it is under construction, or `k` is all of it. -/
structure Sent (m : Byte) (c : ByteString) (k : Nat) (s : State) : Prop where
  marker : s.txMarker = m
  command : s.command = c
  room : s.cmdLen ≤ 996
  progress : (InFrame s ∧ emittedCount s = k) ∨ (s.txPhase = .idle ∧ k = s.cmdLen + 8 ∧ s.txStream = buildFrame m c)

section Sending

variable {m : Byte} {c : ByteString} {k : Nat} {s : State}

theorem Sent.cmdLen_eq (h : Sent m c k s) : s.cmdLen = c.length := by rw [← h.command, State.command_length]

theorem sent_started (hle : s.cmdLen ≤ 996) : Sent m s.command 0 (s.started m) :=
  ⟨rfl, rfl, hle, .inl ⟨inFrame_started m s, rfl⟩⟩

/-- The bytes that are out are registers of the builder. -/
theorem Sent.of_builderRegs {t : State} (hs : Sent m c k s) (h : t.builderRegs = s.builderRegs) : Sent m c k t := by
  cases s
  cases t
  cases h
  exact { hs with progress := hs.progress.imp_left fun ⟨hframe, hcount⟩ => ⟨hframe.of_builderRegs rfl, hcount⟩ }

/-- With bytes of the frame left, `TX_POP` succeeds and emits the next. -/
theorem Sent.pop (h : Sent m c k s) (hk : k < c.length + 8) :
    ∃ t, exec .txPop s = .next t ∧ t.err = .none ∧ Sent m c (k + 1) t := by
  have hlen := h.cmdLen_eq
  rcases h.progress with ⟨hframe, hcount⟩ | ⟨-, hall, -⟩
  · obtain ⟨t, ht, hpop⟩ := hframe.pop h.room
    have hmarker : t.txMarker = s.txMarker := congrArg Loaded.txMarker hpop.loaded
    have htlen : t.cmdLen = s.cmdLen := congrArg Loaded.cmdLen hpop.loaded
    refine ⟨t, ht, hpop.err, hmarker.trans h.marker, (command_of_loaded hpop.loaded).trans h.command, htlen ▸ h.room, ?_⟩
    rcases hpop.next with ⟨hbusy, hnext⟩ | ⟨hidle, hlast⟩
    · exact .inl ⟨hpop.inFrame hframe hbusy, by rw [hnext, hcount]⟩
    · exact .inr ⟨hidle, by omega, by rw [hpop.whole hframe hidle, h.marker, h.command]⟩
  · omega

/-- After as many bytes as the frame has, the builder is idle and the stream is the frame. -/
theorem Sent.whole (h : Sent m c (c.length + 8) s) : s.txStream = buildFrame m c ∧ s.txPhase = .idle ∧
    exec .txPop s = .next { s with err := .caller, errInfo := .txIdle } := by
  have hlen := h.cmdLen_eq
  rcases h.progress with ⟨hframe, hcount⟩ | ⟨hidle, -, hstream⟩
  · have hlt := hframe.emittedCount_lt
    omega
  · exact ⟨hstream, hidle, exec_txPop_idle hidle⟩

/-- Along a run of `TX_POP`s and operations outside the builder, each `TX_POP` emits one byte. -/
theorem Sent.run {ops : List Instr} {t : State} (h : Sent m c k s) (hops : ∀ i ∈ ops, i = .txPop ∨ outsideBuilder i = true)
    (hk : k + ops.count .txPop ≤ c.length + 8) (hrun : runOps ops s = .next t) : Sent m c (k + ops.count .txPop) t := by
  induction ops generalizing k s with
  | nil =>
    cases hrun
    exact h
  | cons i ops ih =>
    obtain ⟨hi, htail⟩ := List.forall_mem_cons.1 hops
    obtain ⟨u, hu, htailrun⟩ := runOps_cons_next.1 hrun
    by_cases hpop : i = .txPop
    · subst hpop
      rw [List.count_cons_self] at hk ⊢
      obtain ⟨v, hv, -, hsent⟩ := h.pop (by omega)
      rw [hv] at hu
      cases hu
      have hrest := ih hsent htail (by omega) htailrun
      rwa [Nat.add_assoc, Nat.add_comm 1] at hrest
    · rw [List.count_cons_of_ne hpop] at hk ⊢
      exact ih (h.of_builderRegs (exec_builderRegs (hi.resolve_left hpop) hu)) htail hk htailrun

/-- A run with as many `TX_POP`s as the frame has bytes emits it whole. -/
theorem Sent.whole_of_run {ops : List Instr} {t : State} (h : Sent m c 0 s)
    (hops : ∀ i ∈ ops, i = .txPop ∨ outsideBuilder i = true) (hcount : ops.count .txPop = c.length + 8)
    (hrun : runOps ops s = .next t) : t.txStream = buildFrame m c ∧ t.txPhase = .idle ∧
      exec .txPop t = .next { t with err := .caller, errInfo := .txIdle } := by
  have hsent := h.run hops (by omega) hrun
  rw [Nat.zero_add, hcount] at hsent
  exact hsent.whole

/-- `TX_POP`s alone complete. -/
theorem Sent.completes_pops (h : Sent m c k s) {n : Nat} (hk : k + n ≤ c.length + 8) :
    ∃ t, runOps (List.replicate n .txPop) s = .next t := by
  induction n generalizing k s with
  | zero => exact ⟨s, rfl⟩
  | succ n ih =>
    obtain ⟨u, hu, -, hsent⟩ := h.pop (by omega)
    obtain ⟨t, ht⟩ := ih hsent (by omega)
    exact ⟨t, runOps_cons_next.2 ⟨u, hu, ht⟩⟩

end Sending

/-! ## Operations of the other units complete -/

/-- While capturing there is room for a byte. -/
def HasRoom (s : State) : Prop := s.rxState = .capturing → s.rxLen < 1000

theorem HasRoom.of_contents {s t : State} (h : t.contents = s.contents) (hs : HasRoom s) : HasRoom t := by
  have hstate : t.rxState = s.rxState := congrArg Contents.rxState h
  have hlen : t.rxLen = s.rxLen := congrArg Contents.rxLen h
  rwa [HasRoom, hstate, hlen]

/-- The byte that fills the buffer ends the capture. -/
theorem hasRoom_storeByte (b : Byte) {s : State} (room : s.rxLen < 1000) : HasRoom (storeByte b s) := by
  rw [storeByte_eq]
  intro hmore
  dsimp only at hmore ⊢
  split at hmore
  · cases hmore
  · omega

theorem Effect.keeps_room {s t : State} (e : Effect s t) (hs : HasRoom s) : HasRoom t := by
  cases e with
  | kept h => exact hs.of_contents h
  | cleared _ _ _ _ h => exact .of_contents h fun _ => Nat.zero_lt_succ _
  | emptied h => exact .of_contents h hs
  | pushed _ _ h => exact .of_contents h hs
  | stored b _ room h => exact h ▸ hasRoom_storeByte b room
  | timedOut _ h => exact .of_contents h fun done => nomatch done
  | judged _ _ _ _ _ _ _ _ _ h => exact .of_contents h hs

/-- No operation of another unit can leave the response buffer. -/
structure Receptive (s : State) : Prop where
  buffers : BuffersOk s
  room : HasRoom s

theorem CaptureOk.receptive {s : State} (hs : CaptureOk s) (hb : BuffersOk s) : Receptive s :=
  ⟨hb, fun h => Nat.lt_succ_of_le (hs.capturing h).1⟩

theorem Receptive.of_contents {s t : State} (hs : Receptive s) (h : t.contents = s.contents) : Receptive t :=
  ⟨hs.buffers.of_contents h, hs.room.of_contents h⟩

theorem Receptive.exec {i : Instr} {s t : State} (hs : Receptive s) (h : exec i s = .next t) : Receptive t :=
  ⟨(exec_effect h).keeps_buffers hs.buffers, (exec_effect h).keeps_room hs.room⟩

/-- An operation outside the builder faults only on an index that the response buffer does not have. -/
theorem exec_completes_outsideBuilder {i : Instr} (hi : outsideBuilder i = true) {s : State} (hs : Receptive s) :
    ∃ t, exec i s = .next t := by
  have response (hneeds : needsResponse i = true) : ∃ t, exec i s = .next t := by
    by_cases hd : s.rxState = .done
    · obtain ⟨_, _, _, _, _, _, _, -, -, -, hupd⟩ := exec_response i hneeds s.response
      exact ⟨_, hupd s hd hs.buffers.rxLen_le rfl⟩
    · exact ⟨_, exec_not_done hneeds hd⟩
  cases i with
  | nop | rxClear => exact ⟨_, rfl⟩
  | rxByte b =>
    by_cases hcapturing : s.rxState = .capturing
    · exact ⟨storeByte b s, by simp only [exec, execRxByte, Config.rxMax, if_pos hcapturing, if_pos (hs.room hcapturing)]⟩
    · exact ⟨s, if_neg hcapturing⟩
  | rxTimeout =>
    simp only [exec, execRxTimeout]
    split
    · split <;> exact ⟨_, rfl⟩
    · exact ⟨_, rfl⟩
  | reset | crcInit | crcByte | crcBit | cmdClear | cmdPush | txStart | txPop => cases hi
  | _ => exact response rfl

/-- A run of `TX_POP`s, no more than bytes are left, and operations outside the builder completes. -/
theorem Sent.completes {m : Byte} {c : ByteString} {k : Nat} {s : State} {ops : List Instr} (h : Sent m c k s) (hs : Receptive s)
    (hops : ∀ i ∈ ops, i = .txPop ∨ outsideBuilder i = true) (hk : k + ops.count .txPop ≤ c.length + 8) :
    ∃ t, runOps ops s = .next t := by
  induction ops generalizing k s with
  | nil => exact ⟨s, rfl⟩
  | cons i ops ih =>
    obtain ⟨hi, htail⟩ := List.forall_mem_cons.1 hops
    suffices ∃ u j, exec i s = .next u ∧ Sent m c j u ∧ j + ops.count .txPop ≤ c.length + 8 by
      obtain ⟨u, j, hu, hsent, hj⟩ := this
      obtain ⟨t, ht⟩ := ih hsent (hs.exec hu) htail hj
      exact ⟨t, runOps_cons_next.2 ⟨u, hu, ht⟩⟩
    by_cases hpop : i = .txPop
    · subst hpop
      rw [List.count_cons_self] at hk
      obtain ⟨u, hu, -, hsent⟩ := h.pop (by omega)
      exact ⟨u, k + 1, hu, hsent, by omega⟩
    · rw [List.count_cons_of_ne hpop] at hk
      obtain ⟨u, hu⟩ := exec_completes_outsideBuilder (hi.resolve_left hpop) hs
      exact ⟨u, k, hu, h.of_builderRegs (exec_builderRegs (hi.resolve_left hpop) hu), hk⟩

/-- The last `TX_POP` of a run succeeds, when the frame has a byte for it. -/
theorem Sent.err_of_pop {m : Byte} {c : ByteString} {pre : List Instr} {s v : State} (h : Sent m c 0 s)
    (hpre : ∀ i ∈ pre, i = .txPop ∨ outsideBuilder i = true) (hk : pre.count .txPop < c.length + 8)
    (hrun : runOps (pre ++ [.txPop]) s = .next v) : v.err = .none := by
  obtain ⟨u, hu, hlast⟩ := runOps_append_next.1 hrun
  have hsent : Sent m c (pre.count .txPop) u := by
    simpa using h.run hpre (by omega) hu
  obtain ⟨w, hw, herr, -⟩ := hsent.pop hk
  obtain ⟨w', hw', hnil⟩ := runOps_cons_next.1 hlast
  rw [hw] at hw'
  cases hw'
  cases hnil
  exact herr

end Sys2Proof.Machine
end

section
open Sys2Proof Sys2Proof.Machine

/-! ## The statements -/

/-- Settles O15: the guard of R16, and the empty command behind it. -/
theorem cmdClearEmptiesTheCommand : Obligations.CmdClearEmptiesTheCommand := by
  intro s
  rw [exec_cmdClear]
  exact ⟨whenNotBusy_idle, whenNotBusy_busy⟩

/-- Settles O16: the guard of R16, the room left, and the canonical buffer read back after the write. -/
theorem cmdPushAppendsTheByte : Obligations.CmdPushAppendsTheByte := by
  intro s b hwf
  refine ⟨fun h room => ⟨_, exec_cmdPush_room b h room, fun i => ?_, rfl⟩, exec_cmdPush_full b, exec_cmdPush_busy b⟩
  split
  next hi => rw [hi, Memory.read_write_same hwf]
  next hi => exact Memory.read_write_other _ _ hi

/-- Settles O17: each check of R104 refuses when those before it have passed. -/
theorem txStartChecksInOrder : Obligations.TxStartChecksInOrder := by
  intro s m
  rw [exec_txStart]
  simp only [← isMarker_iff, Bool.not_eq_true]
  rfl

/-- Settles O18: the rule of each phase, the byte emitted being named before it in the length field. -/
theorem txPopOutsideTheBody : Obligations.TxPopOutsideTheBody := by
  refine fun s => ⟨exec_txPop_idle, exec_txPop_of_phase, exec_txPop_of_phase, ?_, ?_, ?_, exec_txPop_crch, exec_txPop_crcl,
    exec_txPop_of_phase⟩
  all_goals
    rintro h b rfl
    exact exec_txPop_of_phase h

/-- Settles O19: below `cmd_len` the index lies inside the buffer, so phase `BODY` does not fault. -/
theorem txPopEmitsTheCommandByte : Obligations.TxPopEmitsTheCommandByte := by
  rintro s h hi hle b rfl
  exact exec_txPop_body h (hi.trans_le hle)

/-- Settles O51: each operation keeps the frame under construction, and a wait or a reserved word does not touch the builder. -/
theorem stepKeepsTheBuilder : Obligations.StepKeepsTheBuilder := by
  intro s t hb hs h
  rcases step_next.1 h with ⟨-, rfl⟩ | ⟨p, rest, -, ⟨i, -, h⟩ | ⟨-, rfl⟩⟩
  · exact hs
  · exact exec_keeps_builder (s := { s with inbox := rest }) (.of_contents (s := s) rfl hb) (hs.of_builderRegs rfl) h
  · exact hs.of_builderRegs rfl

/-- Settles O20: the count of bytes that are out rises with every `TX_POP`, until it is the length of the frame. -/
theorem frameIsEmittedWhole : Obligations.FrameIsEmittedWhole := by
  intro s m hidle hm hovf hbad hle
  have hsent : Sent m s.command 0 (s.started m) := sent_started hle
  have hlen := State.command_length s
  refine ⟨s.started m, ?_, ?_, fun ops hops hcount => ?_⟩
  · rw [exec_txStart, if_neg (not_not.2 hidle)]
    simp [isMarker_iff.2 hm, hovf, hbad]
  · obtain ⟨t, ht⟩ := hsent.completes_pops (n := s.cmdLen + 8) (by omega)
    have hcount : (List.replicate (s.cmdLen + 8) Instr.txPop).count .txPop = s.command.length + 8 := by
      rw [List.count_replicate_self, hlen]
    exact ⟨t, ht, hsent.whole_of_run (fun _ hi => .inl (List.eq_of_mem_replicate hi)) hcount ht⟩
  · have popped (pre post : List Instr) (v : State) (hsplit : ops = pre ++ .txPop :: post)
        (hv : runOps (pre ++ [.txPop]) (s.started m) = .next v) : v.err = .none := by
      subst hsplit
      rw [List.count_append, List.count_cons_self] at hcount
      exact hsent.err_of_pop (fun i hi => hops i (List.mem_append_left _ hi)) (by omega) hv
    refine ⟨fun hbuffers hcapture => ?_, fun u hu => hsent.whole_of_run hops (by omega) hu, popped⟩
    have hreceptive : Receptive (s.started m) := (hcapture.receptive hbuffers).of_contents rfl
    obtain ⟨u, hu⟩ := hsent.completes hreceptive hops (by omega)
    refine ⟨u, hu, fun pre post hsplit => ?_⟩
    rw [hsplit, List.append_cons] at hu
    obtain ⟨v, hv, -⟩ := runOps_append_next.1 hu
    exact ⟨v, hv, popped pre post v hsplit hv⟩

end


/-! The capture unit (42_rx_capture.md): each of its operations as one update of the state (R121 to R124), what every step keeps of a
Response (R125 (a) to (c)), and the bytes that a Response is (R125 (d)). -/

section
namespace Sys2Proof.Machine

/-! ## The three operations (R121 to R124) -/

theorem exec_rxClear (s : State) : exec .rxClear s = .next { s with
    rxLen := 0, rxState := .capturing, rxEnd := .none, verdict := .cleared, pay := .cleared, ack := .none, record := .cleared,
    err := .none, errInfo := .none } := rfl

theorem exec_rxByte_capturing {s : State} (b : Byte) (h : s.rxState = .capturing) (room : s.rxLen < 1000) :
    exec (.rxByte b) s = .next (storeByte b s) := by
  rw [exec, execRxByte, if_pos h, Config.rxMax, if_pos room]

theorem exec_rxByte_not_capturing {s : State} (b : Byte) (h : s.rxState ≠ .capturing) : exec (.rxByte b) s = .next s := by
  rw [exec, execRxByte, if_neg h]

theorem exec_rxTimeout_empty {s : State} (h : s.rxState = .capturing) (hlen : s.rxLen = 0) :
    exec .rxTimeout s = .next { s with
      rxState := .done, rxEnd := .timeout, err := .timeout, errInfo := .noResponse,
      diag := s.diag ++ [⟨.eConn, .noResponse, 0x32#8⟩] } := by
  rw [exec, execRxTimeout, if_pos h]
  exact if_pos hlen

theorem exec_rxTimeout_bytes {s : State} (h : s.rxState = .capturing) (hlen : s.rxLen ≠ 0) :
    exec .rxTimeout s = .next { s with rxState := .done, rxEnd := .timeout, err := .none, errInfo := .none } := by
  rw [exec, execRxTimeout, if_pos h]
  exact if_neg hlen

theorem exec_rxTimeout_not_capturing {s : State} (h : s.rxState ≠ .capturing) : exec .rxTimeout s = .next s := by
  rw [exec, execRxTimeout, if_neg h]

/-! ## A byte stored (R122) -/

theorem Memory.read_write {m : Memory} (h : Memory.wf m = true) (a : Nat) (b : Byte) (i : Nat) :
    Memory.read (Memory.write m a b) i = if i = a then b else Memory.read m i := by
  split
  next hi => rw [hi, Memory.read_write_same h]
  next hi => exact Memory.read_write_other m b hi

/-- The byte comes behind those held, whether or not it ends the capture. -/
theorem storeByte_response (b : Byte) {s : State} (h : Memory.wf s.rx = true) : (storeByte b s).response = s.response ++ [b] := by
  rw [storeByte_eq]
  exact Memory.bytes_write_end h s.rxLen b

theorem storeByte_rxLen (b : Byte) (s : State) : (storeByte b s).rxLen = s.rxLen + 1 := by rw [storeByte_eq]

theorem storeByte_rxState (b : Byte) (s : State) :
    (storeByte b s).rxState = if b = 0x0D#8 ∨ s.rxLen + 1 = 1000 then .done else s.rxState := by rw [storeByte_eq]

theorem storeByte_rxEnd (b : Byte) (s : State) :
    (storeByte b s).rxEnd = if b = 0x0D#8 then .term else if s.rxLen + 1 = 1000 then .overflow else s.rxEnd := by rw [storeByte_eq]

theorem storeByte_rx_wf (b : Byte) {s : State} (h : Memory.wf s.rx = true) : Memory.wf (storeByte b s).rx = true := by
  rw [storeByte_eq]
  exact Memory.wf_write h s.rxLen b

/-! ## What a Response is guaranteed to be (R125 (a) to (c)) -/

/-- The invariant speaks of the capture registers alone. -/
theorem CaptureOk.of_same {s t : State} (h : SameCapture s t) (hs : CaptureOk s) : CaptureOk t := by
  constructor <;> simp only [h.rxState, h.rxEnd, h.rxLen, h.response]
  · exact hs.idle
  · exact hs.capturing
  · exact hs.done
  · exact hs.term
  · exact hs.overflow
  · exact hs.timeout

theorem CaptureOk.of_contents {s t : State} (h : t.contents = s.contents) (hs : CaptureOk s) : CaptureOk t :=
  hs.of_same (.of_contents h)

/-- Without a byte and without a Response there is nothing to guarantee. -/
theorem CaptureOk.of_empty {s : State} (hstate : s.rxState ≠ .done) (hlen : s.rxLen = 0) (hend : s.rxEnd = .none) : CaptureOk s where
  idle _ := ⟨hlen, hend⟩
  capturing _ := ⟨by omega, hend, by simp [State.response, hlen]⟩
  done h := absurd h hstate
  term h := absurd h hstate
  overflow h := absurd h hstate
  timeout h := absurd h hstate

/-- A capture that the terminator ends. -/
theorem CaptureOk.of_term {s : State} {body : ByteString} (hstate : s.rxState = .done) (hend : s.rxEnd = .term)
    (hresponse : s.response = body ++ [0x0D#8]) (hbody : 0x0D#8 ∉ body) : CaptureOk s where
  idle h := nomatch hstate.symm.trans h
  capturing h := nomatch hstate.symm.trans h
  done _ h := nomatch hend.symm.trans h
  term _ _ := ⟨body, hresponse, hbody⟩
  overflow _ h := nomatch hend.symm.trans h
  timeout _ h := nomatch hend.symm.trans h

/-- A capture that ends without the terminator, by the guard or by the Timer. -/
theorem CaptureOk.of_unterminated {s : State} (hstate : s.rxState = .done) (hcr : 0x0D#8 ∉ s.response)
    (hend : s.rxEnd = .overflow ∧ s.rxLen = 1000 ∨ s.rxEnd = .timeout ∧ s.rxLen ≤ 999) : CaptureOk s := by
  rcases hend with ⟨hend, hlen⟩ | ⟨hend, hlen⟩ <;> constructor <;> simp [hstate, hend, hlen, hcr]

/-- A capture under way: no terminator so far, and room for one more byte. -/
theorem CaptureOk.of_capturing {s : State} (hstate : s.rxState = .capturing) (hlen : s.rxLen ≤ 999) (hend : s.rxEnd = .none)
    (hcr : 0x0D#8 ∉ s.response) : CaptureOk s := by
  constructor <;> simp [hstate, hlen, hend, hcr]

/-- The terminator ends the capture, else the 1000th byte does, else there is room for one more. -/
theorem CaptureOk.store {s : State} (hs : CaptureOk s) (hwf : Memory.wf s.rx = true) (h : s.rxState = .capturing) (b : Byte) :
    CaptureOk (storeByte b s) := by
  obtain ⟨hlen, hend, hcr⟩ := hs.capturing h
  have hresponse := storeByte_response b hwf
  have hstate := storeByte_rxState b s
  have hlen' := storeByte_rxLen b s
  have hend' := storeByte_rxEnd b s
  by_cases hb : b = 0x0D#8
  · subst hb
    exact .of_term (by simpa using hstate) (by simpa using hend') hresponse hcr
  · have hcr' : 0x0D#8 ∉ (storeByte b s).response := by simp [hresponse, hcr, Ne.symm hb]
    by_cases hfull : s.rxLen + 1 = 1000
    · exact .of_unterminated (by simpa [hfull] using hstate) hcr' (.inl ⟨by simpa [hb, hfull] using hend', by omega⟩)
    · exact .of_capturing (by simpa [hb, hfull, h] using hstate) (by omega) (by simpa [hb, hfull, hend] using hend') hcr'

/-- The Timer ends a capture that neither the terminator nor the guard has ended. -/
theorem CaptureOk.timeOut {s : State} (hs : CaptureOk s) (h : s.rxState = .capturing) :
    CaptureOk { s with rxState := .done, rxEnd := .timeout } := by
  obtain ⟨hlen, -, hcr⟩ := hs.capturing h
  exact .of_unterminated rfl hcr (.inr ⟨rfl, hlen⟩)

theorem Effect.keeps_capture {s t : State} (e : Effect s t) (hwf : Memory.wf s.rx = true) (hs : CaptureOk s) : CaptureOk t := by
  cases e with
  | kept h => exact hs.of_contents h
  | cleared _ _ _ hstate h => exact .of_contents h (.of_empty hstate rfl rfl)
  | emptied h => exact .of_contents h (.of_same (s := s) ⟨rfl, rfl, rfl, rfl⟩ hs)
  | pushed _ _ h => exact .of_contents h (.of_same (s := s) ⟨rfl, rfl, rfl, rfl⟩ hs)
  | stored b capturing _ h => exact h ▸ hs.store hwf capturing b
  | timedOut capturing h => exact .of_contents h (hs.timeOut capturing)
  | judged _ _ _ _ _ _ _ _ _ h => exact .of_contents h (.of_same (s := s) ⟨rfl, rfl, rfl, rfl⟩ hs)

/-! ## The bytes of the Line (R125 (d)) -/

/-- A capture under way that holds the bytes `bs`. -/
structure Capturing (bs : ByteString) (s : State) : Prop where
  state : s.rxState = .capturing
  response : s.response = bs
  rx_wf : Memory.wf s.rx = true

/-- A capture that ended as `e`, with the Response `bs`. -/
structure Captured (e : RxEnd) (bs : ByteString) (s : State) : Prop where
  state : s.rxState = .done
  ended : s.rxEnd = e
  response : s.response = bs

section Receiving

variable {bs : ByteString} {s : State}

theorem Capturing.rxLen_eq (h : Capturing bs s) : s.rxLen = bs.length := by rw [← h.response, State.response_length]

/-- `RX_CLEAR` starts an empty capture. -/
theorem exec_rxClear_capturing (h : Memory.wf s.rx = true) : ∃ t, exec .rxClear s = .next t ∧ Capturing [] t :=
  ⟨_, exec_rxClear s, rfl, rfl, h⟩

/-- A byte that is no terminator, with room for another behind it. -/
theorem Capturing.more (h : Capturing bs s) {b : Byte} (hb : b ≠ 0x0D#8) (room : bs.length < 999) :
    ∃ t, exec (.rxByte b) s = .next t ∧ Capturing (bs ++ [b]) t := by
  have hlen := h.rxLen_eq
  refine ⟨_, exec_rxByte_capturing b h.state (by omega), ?_, ?_, storeByte_rx_wf b h.rx_wf⟩
  · rw [storeByte_rxState, if_neg (not_or.2 ⟨hb, by omega⟩), h.state]
  · rw [storeByte_response b h.rx_wf, h.response]

/-- The terminator, or the byte that fills the buffer. -/
theorem Capturing.last (h : Capturing bs s) {b : Byte} (room : bs.length ≤ 999) (hlast : b = 0x0D#8 ∨ bs.length = 999) :
    ∃ t, exec (.rxByte b) s = .next t ∧ Captured (if b = 0x0D#8 then .term else .overflow) (bs ++ [b]) t := by
  have hlen := h.rxLen_eq
  have hends : b = 0x0D#8 ∨ s.rxLen + 1 = 1000 := hlast.imp_right fun _ => by omega
  refine ⟨_, exec_rxByte_capturing b h.state (by omega), ?_, ?_, ?_⟩
  · rw [storeByte_rxState, if_pos hends]
  · rw [storeByte_rxEnd]
    by_cases hb : b = 0x0D#8
    · rw [if_pos hb, if_pos hb]
    · rw [if_neg hb, if_neg hb, if_pos (hends.resolve_left hb)]
  · rw [storeByte_response b h.rx_wf, h.response]

/-- Bytes without a terminator that leave room for one more are captured in order. -/
theorem Capturing.run (h : Capturing bs s) {new : ByteString} (hcr : 0x0D#8 ∉ new) (room : bs.length + new.length ≤ 999) :
    ∃ t, runOps (new.map .rxByte) s = .next t ∧ Capturing (bs ++ new) t := by
  induction new generalizing bs s with
  | nil => exact ⟨s, rfl, by rwa [List.append_nil]⟩
  | cons b new ih =>
    obtain ⟨hb, hcr⟩ := not_or.1 (mt List.mem_cons.2 hcr)
    rw [List.length_cons] at room
    obtain ⟨u, hu, hmore⟩ := h.more (Ne.symm hb) (by omega)
    obtain ⟨t, ht, hrun⟩ := ih hmore hcr (by rw [List.length_append, List.length_singleton]; omega)
    exact ⟨t, runOps_cons_next.2 ⟨u, hu, ht⟩, by rwa [List.append_cons]⟩

/-- Bytes that arrive when nothing is captured are dropped. -/
theorem runOps_rxBytes_dropped (h : s.rxState ≠ .capturing) (late : ByteString) : runOps (late.map .rxByte) s = .next s := by
  induction late with
  | nil => rfl
  | cons b late ih => exact runOps_cons_next.2 ⟨s, exec_rxByte_not_capturing b h, ih⟩

/-- After `RX_CLEAR` the bytes of the Line are captured while they leave room and are no terminator. -/
theorem rxClear_captures (hwf : Memory.wf s.rx = true) (hcr : 0x0D#8 ∉ bs) (room : bs.length ≤ 999) :
    ∃ t, runOps (.rxClear :: bs.map .rxByte) s = .next t ∧ Capturing bs t := by
  obtain ⟨u, hu, hclear⟩ := exec_rxClear_capturing hwf
  obtain ⟨t, ht, hrun⟩ := hclear.run hcr (by simpa using room)
  exact ⟨t, runOps_cons_next.2 ⟨u, hu, ht⟩, hrun⟩

/-- The first terminator or the 1000th byte is the last byte of the Response, whatever the Line sends after it. -/
theorem rxClear_captures_to_last (hwf : Memory.wf s.rx = true) (hcr : 0x0D#8 ∉ bs) (room : bs.length ≤ 999) {b : Byte}
    (hlast : b = 0x0D#8 ∨ bs.length = 999) (late : ByteString) :
    ∃ t, runOps (.rxClear :: (bs ++ b :: late).map .rxByte) s = .next t ∧
      Captured (if b = 0x0D#8 then .term else .overflow) (bs ++ [b]) t := by
  obtain ⟨u, hu, hcapturing⟩ := rxClear_captures hwf hcr room
  obtain ⟨t, ht, hended⟩ := hcapturing.last room hlast
  have hlate := runOps_rxBytes_dropped (s := t) (by simp [hended.state]) late
  refine ⟨t, ?_, hended⟩
  rw [List.map_append, List.map_cons, ← List.cons_append]
  exact runOps_append_next.2 ⟨u, hu, runOps_cons_next.2 ⟨t, ht, hlate⟩⟩

end Receiving

end Sys2Proof.Machine
end

section
open Sys2Proof Sys2Proof.Machine

/-! ## The statements -/

/-- Settles O52: a byte or a timeout ends a capture as R125 says or leaves it under way, and every other effect leaves it or empties
it. -/
theorem stepKeepsTheCapture : Obligations.StepKeepsTheCapture := by
  intro s t hb hs h
  obtain ⟨u, hu, e⟩ := step_effect h
  exact e.keeps_capture (hb.of_contents hu).rx_wf (hs.of_contents hu)

/-- Settles O23: below index 1000 the byte is stored, and the canonical buffer reads it back. -/
theorem rxByteIsStoredOrDropped : Obligations.RxByteIsStoredOrDropped := by
  refine fun s b => ⟨fun h hlen hwf => ⟨_, exec_rxByte_capturing b h (Nat.lt_succ_of_le hlen), ?_⟩, exec_rxByte_not_capturing b⟩
  rw [storeByte_eq, h]
  exact ⟨Memory.read_write hwf s.rxLen b, rfl⟩

/-- Settles O25: the bytes are captured in order up to the one that ends the capture, the CR or the last of 1000. -/
theorem captureHoldsTheLinesBytes : Obligations.CaptureHoldsTheLinesBytes := by
  intro s bs late hwf hcr
  refine ⟨fun room => ⟨?_, ?_⟩, fun hfull => ?_⟩
  · obtain ⟨t, ht, hcapturing⟩ := rxClear_captures hwf hcr room
    exact ⟨t, ht, hcapturing.state, hcapturing.response⟩
  · obtain ⟨t, ht, hterm⟩ := rxClear_captures_to_last hwf hcr room (.inl rfl) late
    exact ⟨t, ht, hterm.state, hterm.ended, hterm.response⟩
  · obtain ⟨init, b, rfl⟩ := (List.eq_nil_or_concat' bs).resolve_left (by rintro rfl; simp at hfull)
    obtain ⟨hinit, hb⟩ : 0x0D#8 ∉ init ∧ b ≠ 0x0D#8 := by simpa [eq_comm] using hcr
    have hlen : init.length = 999 := by simpa using hfull
    obtain ⟨t, ht, hoverflow⟩ := rxClear_captures_to_last hwf hinit hlen.le (.inr hlen) late
    rw [if_neg hb] at hoverflow
    rw [← List.append_cons]
    exact ⟨t, ht, hoverflow.state, hoverflow.ended, hoverflow.response⟩

/-- Settles O22: no guard, and each register as R121 names it. -/
theorem rxClearArmsTheCapture : Obligations.RxClearArmsTheCapture := exec_rxClear

/-- Settles O24: the Timer ends a capture, with or without bytes, and finds none otherwise. -/
theorem rxTimeoutEndsTheCapture : Obligations.RxTimeoutEndsTheCapture := fun _ =>
  ⟨exec_rxTimeout_empty, exec_rxTimeout_bytes, exec_rxTimeout_not_capturing⟩

/-- Settles O27: each of the operations stands behind the guard of R126. -/
theorem operationsNeedAResponse : Obligations.OperationsNeedAResponse := fun _ _ hi hd => exec_not_done hi hd

end


/-! The validator and the extractor (43_validator_extractor.md): the findings of R131 one by one, the cut of R138, what the two
operations write (R130, R137), what is returned for a whole or a damaged data frame (R141, R142), and the bytes that decide (R143). -/

section
namespace Sys2Proof.Machine

/-! ## The bytes that the validator looks at (R131) -/

theorem marker_iff {raw : ByteString} :
    (raw.length < 2 ∨ byteAt raw 0 ≠ 0x5E#8 ∨ byteAt raw 1 ≠ 0x44#8) ↔ raw.take 2 ≠ [0x5E#8, 0x44#8] := by
  match raw with
  | [] => simp
  | [_] => simp
  | _ :: _ :: _ => simp [byteAt, ← not_and_or]

theorem endsWithTerminator_eq (raw : ByteString) : endsWithTerminator raw = decide (raw.getLast? = some 0x0D#8) := by
  rcases List.eq_nil_or_concat' raw with rfl | ⟨init, b, rfl⟩
  · decide
  · simp [endsWithTerminator, byteAt, beq_eq_decide]

theorem trailerCut_eq (raw : ByteString) : trailerCut raw = if raw.getLast? = some 0x0D#8 then 3 else 2 := by
  simp [trailerCut, endsWithTerminator_eq]

theorem lengthError_eq (raw : ByteString) (L : Nat) : lengthError raw L = ((raw.length : Int) - (5 + L)).natAbs := by
  simp only [lengthError, absDiff, Config.headerLen]
  omega

theorem lengthError_eq_zero {raw : ByteString} {L : Nat} : lengthError raw L = 0 ↔ raw.length = 5 + L := by
  rw [lengthError_eq]
  omega

/-! ## The findings in their order (R131) -/

/-- The Response begins with the data marker and a length field that reads `L` (R132, R133). -/
structure Headed (L : Nat) (raw : ByteString) : Prop where
  marker : raw.take 2 = [0x5E#8, 0x44#8]
  present : 5 ≤ raw.length
  digits : allDigits (slice raw 2 5) = true
  reads : num (slice raw 2 5) = L

section Findings

variable {T : Nat} {raw : ByteString}

theorem validateAt_nil : validateAt T [] = fatal .empty 0 := rfl

theorem validateAt_of_no_marker (hne : raw ≠ []) (h : raw.take 2 ≠ [0x5E#8, 0x44#8]) : validateAt T raw = fatal .marker 0 := by
  rw [validateAt, if_neg (mt List.length_eq_zero_iff.1 hne), if_pos (marker_iff.2 h)]

/-- Behind the marker the length field is looked at next. -/
theorem validateAt_of_marker (h : raw.take 2 = [0x5E#8, 0x44#8]) : validateAt T raw =
    if raw.length < 5 ∨ allDigits (slice raw 2 5) = false then fatal .lenField 0
    else if T < lengthError raw (num (slice raw 2 5)) then fatal .length (num (slice raw 2 5))
    else ⟨true, .none, decide (1 ≤ lengthError raw (num (slice raw 2 5))), !endsWithTerminator raw, num (slice raw 2 5)⟩ := by
  have hne : raw.length ≠ 0 := by
    rw [Ne, List.length_eq_zero_iff]
    rintro rfl
    simp at h
  rw [validateAt, if_neg hne, if_neg (mt marker_iff.1 (not_not.2 h))]
  rfl

theorem validateAt_of_no_lengthField (h : raw.take 2 = [0x5E#8, 0x44#8])
    (hfield : raw.length < 5 ∨ allDigits (slice raw 2 5) = false) : validateAt T raw = fatal .lenField 0 := by
  rw [validateAt_of_marker h, if_pos hfield]

/-- Behind a header only the length is left to check. -/
theorem Headed.validateAt_eq {L : Nat} (h : Headed L raw) (T : Nat) : validateAt T raw =
    if T < lengthError raw L then fatal .length L
    else ⟨true, .none, decide (1 ≤ lengthError raw L), !endsWithTerminator raw, L⟩ := by
  obtain ⟨hmarker, hpresent, hdigits, rfl⟩ := h
  rw [validateAt_of_marker hmarker, if_neg (by simp [hpresent, hdigits])]

theorem Headed.validateAt_within {L : Nat} (h : Headed L raw) (hd : lengthError raw L ≤ T) :
    (validateAt T raw).ok = true ∧ (validateAt T raw).declared = L := by
  rw [h.validateAt_eq, if_neg (Nat.not_lt.2 hd)]
  exact ⟨rfl, rfl⟩

/-! ## The cut (R138) -/

theorem trusted_iff {trust : Trust} {L : Nat} : trusted trust raw L = true ↔
    (raw.length = 5 + L ∨ trust = .withinTolerance) ∧ 3 ≤ L ∧ 5 + (L - 3) ≤ raw.length := by
  simp [trusted, lengthError_eq_zero, and_assoc]

theorem extractAt_of_trusted {trust : Trust} (hok : (validateAt T raw).ok = true)
    (h : trusted trust raw (validateAt T raw).declared = true) :
    extractAt T trust raw = some ⟨(validateAt T raw).declared - 3, false⟩ := by
  rw [extractAt, if_pos hok, if_pos h]

/-- Without trust in the declared length the trailer is sliced off the end (R140). -/
theorem extractAt_of_not_trusted {trust : Trust} (hok : (validateAt T raw).ok = true)
    (h : ¬trusted trust raw (validateAt T raw).declared = true) : extractAt T trust raw =
    if raw.length < 5 + trailerCut raw then none else some ⟨raw.length - 5 - trailerCut raw, true⟩ := by
  rw [extractAt, if_pos hok, if_neg h]

end Findings

/-! ## The bytes that decide (R143) -/

theorem byteAt_take (raw : ByteString) {i n : Nat} (h : i < n) : byteAt (raw.take n) i = byteAt raw i := by
  simp [byteAt, List.getElem?_take_of_lt h]

/-- Two byte strings that the validator cannot tell apart: of one length, with one header and one last byte. -/
structure SameEnds (raw raw' : ByteString) : Prop where
  length : raw'.length = raw.length
  header : raw'.take 5 = raw.take 5
  last : raw'.getLast? = raw.getLast?

section Deciding

variable {raw raw' : ByteString} (h : SameEnds raw raw')
include h

theorem byteAt_of_sameEnds {i : Nat} (hi : i < 5) : byteAt raw' i = byteAt raw i := by
  rw [← byteAt_take raw' hi, h.header, byteAt_take raw hi]

theorem lengthField_of_sameEnds : lengthField raw' = lengthField raw := congrArg (List.drop 2) h.header

theorem endsWithTerminator_of_sameEnds : endsWithTerminator raw' = endsWithTerminator raw := by
  rw [endsWithTerminator_eq, endsWithTerminator_eq, h.last]

theorem lengthError_of_sameEnds (L : Nat) : lengthError raw' L = lengthError raw L := by
  rw [lengthError_eq, lengthError_eq, h.length]

theorem validateAt_of_sameEnds (T : Nat) : validateAt T raw' = validateAt T raw := by
  have hfirst : byteAt raw' 0 = byteAt raw 0 := byteAt_of_sameEnds h (by decide)
  have hsecond : byteAt raw' 1 = byteAt raw 1 := byteAt_of_sameEnds h (by decide)
  simp only [validateAt, h.length, hfirst, hsecond, lengthField_of_sameEnds h, lengthError_of_sameEnds h,
    endsWithTerminator_of_sameEnds h]

theorem trusted_of_sameEnds (trust : Trust) (L : Nat) : trusted trust raw' L = trusted trust raw L := by
  rw [trusted, lengthError_of_sameEnds h, h.length, trusted]

theorem trailerCut_of_sameEnds : trailerCut raw' = trailerCut raw := by
  rw [trailerCut, endsWithTerminator_of_sameEnds h, trailerCut]

theorem extractAt_of_sameEnds (T : Nat) (trust : Trust) : extractAt T trust raw' = extractAt T trust raw := by
  rw [extractAt, validateAt_of_sameEnds h, trusted_of_sameEnds h, trailerCut_of_sameEnds h, h.length, extractAt]

end Deciding

/-! ## What the two operations write (R130, R137) -/

section Writing

variable {op : Byte} {raw : ByteString} {s : State}

/-- `VALIDATE` on a valid Response: no error, and at most the two warnings. -/
theorem validatePart_of_ok (h : (validate raw).ok = true) : validatePart op raw s = { s with
    verdict := ⟨true, true, (validate raw).soft, (validate raw).noterm, .none, (validate raw).declared,
      5 + (validate raw).declared⟩,
    err := .none, errInfo := .none,
    diag := s.diag ++ (if (validate raw).soft then [⟨.eProto, .wLengthSoft, op⟩] else []) ++
      (if (validate raw).noterm then [⟨.eProto, .wNoterm, op⟩] else []) } := by
  obtain ⟨e, d, new, heq, hvalid, -⟩ := validatePart_eq op raw
  obtain ⟨rfl, rfl, rfl⟩ := hvalid h
  have hreason : (validate raw).reason = .none := (validateAt_reason Config.lenTolerance raw).1.1 h
  rw [heq, List.append_assoc]
  simp [Finding.regs, hreason, h]

/-- `VALIDATE` on a Response with a fatal finding: the error and its log entry; a length is reported where it could be read. -/
theorem validatePart_of_fatal (h : (validate raw).reason ≠ .none) : validatePart op raw s = { s with
    verdict := ⟨true, false, false, false, (validate raw).reason, (validate raw).declared,
      if (validate raw).reason = .length then 5 + (validate raw).declared else 0⟩,
    err := .protocol, errInfo := (validate raw).reason.detail,
    diag := s.diag ++ [⟨.eProto, (validate raw).reason.detail, op⟩] } := by
  obtain ⟨e, d, new, heq, -, hinvalid⟩ := validatePart_eq op raw
  obtain ⟨hok_iff, hwarnings, -⟩ := validateAt_reason Config.lenTolerance raw
  have hok : (validate raw).ok = false := Bool.eq_false_iff.2 (mt hok_iff.1 h)
  obtain ⟨hsoft, hnoterm⟩ : (validate raw).soft = false ∧ (validate raw).noterm = false := hwarnings hok
  obtain ⟨rfl, rfl, rfl⟩ := hinvalid hok
  rw [heq]
  simp [Finding.regs, h, hok, hsoft, hnoterm]

/-- The first three failures report no length: none could be read (R131). -/
theorem validatePart_of_unread {r : Reason} (h : (validate raw).reason = r) (hnone : r ≠ .none) (hlength : r ≠ .length) :
    validatePart op raw s = { s with
      verdict := ⟨true, false, false, false, r, 0, 0⟩, err := .protocol, errInfo := r.detail,
      diag := s.diag ++ [⟨.eProto, r.detail, op⟩] } := by
  subst h
  obtain ⟨-, -, hdeclared⟩ := validateAt_reason Config.lenTolerance raw
  have hzero : (validate raw).declared = 0 := hdeclared hnone hlength
  rw [validatePart_of_fatal hnone, hzero, if_neg hlength]

theorem validatePart_of_wrong_length (h : (validate raw).reason = .length) : validatePart op raw s = { s with
    verdict := ⟨true, false, false, false, .length, (validate raw).declared, 5 + (validate raw).declared⟩,
    err := .protocol, errInfo := .vLength, diag := s.diag ++ [⟨.eProto, .vLength, op⟩] } := by
  rw [validatePart_of_fatal (by simp [h]), h, if_pos rfl]
  rfl

/-- `EXTRACT` on a valid Response without room for a payload. -/
theorem extractPart_of_short (h : extract raw = none) (hok : (validate raw).ok = true) :
    extractPart op raw s = { validatePart op raw s with
      pay := ⟨true, true, 0, 0, false⟩, err := .protocol, errInfo := .xShort,
      diag := (validatePart op raw s).diag ++ [⟨.eProto, .xShort, op⟩] } := by
  simp only [extractPart, h, hok, if_true]
  rfl

/-- `EXTRACT` on an invalid Response: the validator's error stands. -/
theorem extractPart_of_invalid (h : extract raw = none) (hok : (validate raw).ok = false) :
    extractPart op raw s = { validatePart op raw s with pay := ⟨true, true, 0, 0, false⟩ } := by
  simp only [extractPart, h, hok, Bool.false_eq_true, if_false]
  rfl

/-- `EXTRACT` on a Response with a payload: a fallback cut is logged. -/
theorem extractPart_of_some {c : Cut} (h : extract raw = some c) : extractPart op raw s = { validatePart op raw s with
    pay := ⟨true, false, 5, c.len, c.fallback⟩,
    diag := (validatePart op raw s).diag ++ (if c.fallback then [⟨.eProto, .xFallback, op⟩] else []) } := by
  obtain ⟨len, fallback⟩ := c
  cases fallback with
  | false => simp [extractPart, h, warnIf, payRegs]
  | true => simp [extractPart, h, warnIf, warnDiag, logEntry, Detail.diagCode, payRegs]

theorem exec_validate (h : s.rxState = .done) (hl : s.rxLen ≤ 1000) :
    exec .validate s = .next (validatePart 0x40#8 s.response s) := by
  rw [exec, execValidate, withResponse_done h hl]
  rfl

theorem exec_extract (h : s.rxState = .done) (hl : s.rxLen ≤ 1000) :
    exec .extract s = .next (extractPart 0x41#8 s.response s) := by
  rw [exec, execExtract, withResponse_done h hl]
  rfl

end Writing

/-! ## Data frames, whole and damaged (R141) -/

/-- What follows a header that was built for the length `L` does not disturb it. -/
theorem headed_append {L : Nat} (h : L ≤ 999) (tail : ByteString) : Headed L ([0x5E#8, 0x44#8] ++ dec3 L ++ tail) where
  marker := rfl
  present := by simp
  digits := allDigits_dec3 h
  reads := num_dec3 h

section Frames

variable {n T : Nat} {tail : ByteString}

theorem length_frame (L : Nat) (tail : ByteString) : ([0x5E#8, 0x44#8] ++ dec3 L ++ tail).length = 5 + tail.length := by
  simp only [List.length_append, dec3_length, List.length_cons, List.length_nil]

/-- A frame that is off by no more than the tolerance is valid, and its declared length is the header's. -/
theorem validateAt_frame (hn : n ≤ 996) (htol : tail.length ≤ n + 3 + T ∧ n + 3 ≤ tail.length + T) :
    (validateAt T ([0x5E#8, 0x44#8] ++ dec3 (n + 3) ++ tail)).ok = true ∧
      (validateAt T ([0x5E#8, 0x44#8] ++ dec3 (n + 3) ++ tail)).declared = n + 3 := by
  refine (headed_append (by omega) tail).validateAt_within ?_
  rw [lengthError_eq, length_frame]
  omega

theorem trusted_frame (trust : Trust) (tail : ByteString) :
    trusted trust ([0x5E#8, 0x44#8] ++ dec3 (n + 3) ++ tail) (n + 3) = true ↔
      (tail.length = n + 3 ∨ trust = .withinTolerance) ∧ n ≤ tail.length := by
  rw [trusted_iff, length_frame]
  simp

/-- A trusted length `n + 3` gives back `n` bytes, whatever became of the bytes behind the header. -/
theorem extractAt_frame_trusted {trust : Trust} (hn : n ≤ 996) (htol : tail.length ≤ n + 3 + T ∧ n + 3 ≤ tail.length + T)
    (htrust : tail.length = n + 3 ∨ trust = .withinTolerance) (hroom : n ≤ tail.length) :
    extractAt T trust ([0x5E#8, 0x44#8] ++ dec3 (n + 3) ++ tail) = some ⟨n, false⟩ := by
  obtain ⟨hok, hdeclared⟩ := validateAt_frame hn htol
  have htrusted := (trusted_frame trust tail).2 ⟨htrust, hroom⟩
  rw [extractAt_of_trusted hok (by rwa [hdeclared]), hdeclared, Nat.add_sub_cancel]

/-- A length that is off is not trusted: what is left behind the header is returned but its last three bytes, or two of them when the
last is no terminator. -/
theorem extractAt_frame_fallback (hn : n ≤ 996) (htol : tail.length ≤ n + 3 + T ∧ n + 3 ≤ tail.length + T)
    (hne : tail.length ≠ n + 3) {last : Byte} (hlast : tail.getLast? = some last) {t : Nat}
    (ht : (if last = 0x0D#8 then 3 else 2) = t) :
    extractAt T .clean ([0x5E#8, 0x44#8] ++ dec3 (n + 3) ++ tail) =
      if tail.length < t then none else some ⟨tail.length - t, true⟩ := by
  obtain ⟨hok, hdeclared⟩ := validateAt_frame hn htol
  have huntrusted : ¬trusted .clean ([0x5E#8, 0x44#8] ++ dec3 (n + 3) ++ tail) (n + 3) = true := by
    rw [trusted_frame]
    simp [hne]
  have hcut : trailerCut ([0x5E#8, 0x44#8] ++ dec3 (n + 3) ++ tail) = t := by
    rw [trailerCut_eq, List.getLast?_append, hlast]
    simpa using ht
  rw [extractAt_of_not_trusted hok (by rwa [hdeclared]), length_frame, hcut, Nat.add_sub_cancel_left]
  simp only [Nat.add_lt_add_iff_left]

/-- A frame with all its bytes, under every tolerance and reading. -/
theorem extractAt_frame_whole (T : Nat) (trust : Trust) {p : ByteString} (hp : p.length ≤ 996) (kh kl : Byte) :
    extractAt T trust ([0x5E#8, 0x44#8] ++ dec3 (p.length + 3) ++ (p ++ [kh, kl, 0x0D#8])) = some ⟨p.length, false⟩ :=
  extractAt_frame_trusted hp (by simp) (.inl (by simp)) (by simp)

end Frames

/-! ## A built frame (R142) -/

/-- Everything of a frame but its terminator. -/
theorem buildFrame_eq_dropLast (m : Byte) (c : ByteString) : buildFrame m c = (buildFrame m c).dropLast ++ [0x0D#8] := by
  rw [buildFrame_eq_head, List.append_cons, List.append_cons, List.dropLast_concat]

theorem extractAt_buildFrame (T : Nat) (trust : Trust) {p : ByteString} (hp : p.length ≤ 996) :
    extractAt T trust (buildFrame 0x44#8 p) = some ⟨p.length, false⟩ := by
  rw [buildFrame_eq_head, frameHead, List.append_assoc]
  exact extractAt_frame_whole T trust hp _ _

/-- The capture unit holds the whole of a frame that fits and has no early terminator. -/
theorem rxClear_captures_buildFrame {m : Byte} {c : ByteString} {s : State} (hwf : Memory.wf s.rx = true) (hfit : c.length ≤ 992)
    (hcr : 0x0D#8 ∉ (buildFrame m c).dropLast) :
    ∃ t, runOps (.rxClear :: (buildFrame m c).map .rxByte) s = .next t ∧ t.rxState = .done ∧ t.response = buildFrame m c := by
  have hroom : (buildFrame m c).dropLast.length ≤ 999 := by simp; omega
  obtain ⟨t, ht, hcaptured⟩ := rxClear_captures_to_last hwf hcr hroom (.inl rfl) []
  rw [← buildFrame_eq_dropLast] at ht
  exact ⟨t, ht, hcaptured.state, hcaptured.response.trans (buildFrame_eq_dropLast m c).symm⟩

end Sys2Proof.Machine
end

section
open Sys2Proof Sys2Proof.Machine

/-! ## The statements -/

/-- Settles O28: the checks in their order, each finding its failure when those before it pass. -/
theorem validateFindsTheFirstFailure : Obligations.ValidateFindsTheFirstFailure := by
  intro T raw
  refine ⟨?_, validateAt_of_no_marker, fun hmarker hfield => ?_, ?_⟩
  · rintro rfl
    exact validateAt_nil
  · exact validateAt_of_no_lengthField hmarker (hfield.imp_right allDigits_eq_false.2)
  · rintro hmarker hpresent hdigits L d rfl rfl
    have hhead : Headed (num (slice raw 2 5)) raw := ⟨hmarker, hpresent, List.all_eq_true.2 hdigits, rfl⟩
    rw [hhead.validateAt_eq, lengthError_eq]
    refine ⟨fun hd => if_pos hd, fun hd => ?_⟩
    rw [if_neg (Nat.not_lt.2 hd), endsWithTerminator_eq, ← decide_not]

/-- Settles O30: the model's two tests on the Response are the statement's, and each branch of the cut is one clause. -/
theorem extractCutsThePayload : Obligations.ExtractCutsThePayload := by
  rintro T trust raw v trailer rfl rfl
  rw [← trusted_iff, ← trailerCut_eq]
  refine ⟨extractAt_none_of_invalid, fun hok => ⟨extractAt_of_trusted hok, fun huntrusted => ?_⟩⟩
  rw [extractAt_of_not_trusted hok huntrusted]
  exact ⟨fun hshort => if_pos hshort, fun hroom => if_neg (Nat.not_lt.2 hroom)⟩

/-- Settles O32: a built frame is a whole one, and the capture unit hands it over unchanged. -/
theorem extractRecoversABuiltPayload : Obligations.ExtractRecoversABuiltPayload := by
  intro p hp _
  refine ⟨fun T trust => extractAt_buildFrame T trust hp, slice_buildFrame_command _ p, fun hfit hcr s hwf => ?_⟩
  obtain ⟨u, hu, hdone, hresponse⟩ := rxClear_captures_buildFrame hwf hfit hcr
  have hlen : u.rxLen ≤ 1000 := by
    rw [← State.response_length, hresponse, buildFrame_length]
    omega
  have hcut : extract u.response = some ⟨p.length, false⟩ := by
    rw [hresponse]
    exact extractAt_buildFrame _ _ hp
  have hkept : (extractPart 0x41#8 u.response u).response = buildFrame 0x44#8 p := by
    simp only [State.response, extractPart_rx, extractPart_rxLen]
    exact hresponse
  refine ⟨extractPart 0x41#8 u.response u, ?_, ?_, ?_, (extractPart_ok hcut).1⟩
  · exact runOps_append_next.2 ⟨u, hu, runOps_cons_next.2 ⟨_, exec_extract hdone hlen, rfl⟩⟩
  · rw [extractPart_pay, hcut]
    rfl
  · rw [hkept, slice_buildFrame_command]

/-- Settles O33: the rows differ in the bytes left behind the header and in the last of them. -/
theorem damagedFrameExtraction : Obligations.DamagedFrameExtraction := by
  rintro p h kh kl hp rfl
  simp only [List.append_assoc (_ ++ _)]
  refine ⟨fun trust => extractAt_frame_whole 2 trust hp kh kl, fun kl' hkl => ?_, fun kh' hkh => ?_, ?_, ?_, fun q hq => ?_,
    fun q hq => ⟨?_, ?_⟩⟩
  · rw [extractAt_frame_fallback hp (by simp) (by simp) (last := kl') (by simp) (if_neg hkl)]
    simp
  · rw [extractAt_frame_fallback hp (by simp) (by simp) (last := kh') (by simp) (if_neg hkh)]
    cases p <;> simp
  · rw [extractAt_frame_fallback hp (by simp) (by simp) (last := 0x0D#8) (by simp) (if_pos rfl)]
    exact if_congr (by simp; omega) rfl (by simp)
  · rw [extractAt_frame_fallback hp (by simp) (by simp) (last := 0x0D#8) (by simp) (if_pos rfl)]
    cases p <;> simp
  · have hlen : q.length = 1 ∨ q.length = 2 := by
      simp only [List.mem_cons, List.not_mem_nil, or_false] at hq
      obtain rfl | rfl | rfl | rfl := hq <;> simp
    refine extractAt_frame_trusted hp ?_ (.inr rfl) ?_ <;> rw [List.length_append] <;> omega
  · rw [extractAt_frame_fallback hp (by simp; omega) (by simp; omega) (last := 0x0D#8) (by simp) (if_pos rfl)]
    simp
  · exact extractAt_frame_trusted hp (by simp; omega) (.inr rfl) (by simp; omega)

/-- Settles O34: the findings and the cut are read off the length, the header and the last byte. -/
theorem verdictIgnoresTheCrc : Obligations.VerdictIgnoresTheCrc := by
  intro T trust raw raw' hlength hheader hlast
  have hsame : SameEnds raw raw' := ⟨hlength, hheader, hlast⟩
  exact ⟨validateAt_of_sameEnds hsame T, extractAt_of_sameEnds hsame T trust⟩

/-- Settles O29: a valid Response writes one set of values, a fatal finding another that depends on its reason alone. -/
theorem validateWritesTheVerdict : Obligations.ValidateWritesTheVerdict := by
  refine ⟨fun s => exec_validate, fun s => exec_not_done rfl, ?_⟩
  rintro op raw s v rfl
  exact ⟨validatePart_of_ok, fun hempty => validatePart_of_unread hempty nofun nofun,
    fun hmarker => validatePart_of_unread hmarker nofun nofun, fun hfield => validatePart_of_unread hfield nofun nofun,
    validatePart_of_wrong_length⟩

/-- Settles O31: the part writes one set of registers for each of its three results. -/
theorem extractWritesThePayload : Obligations.ExtractWritesThePayload := by
  refine ⟨fun s => exec_extract, fun s => exec_not_done rfl, ?_⟩
  rintro op raw s u rfl
  exact ⟨extractPart_of_short, extractPart_of_invalid, fun c => extractPart_of_some⟩

end


/-! The acknowledgement (44_ack.md R150): the prefix as bytes of the receive buffer, and what `ACK_CHECK` writes for each result. -/

section
namespace Sys2Proof.Machine

/-! ## The prefix (R150) -/

theorem isAck_iff {raw : ByteString} :
    isAck raw = true ↔ 2 ≤ raw.length ∧ byteAt raw 0 = 0x5E#8 ∧ byteAt raw 1 = 0x31#8 := by
  simp [isAck, Config.mark0, Config.markAck, and_assoc]

/-- A byte of the Response is the byte that the receive buffer holds at its index. -/
theorem byteAt_response {s : State} {i : Nat} (h : i < s.rxLen) : byteAt s.response i = Memory.read s.rx i := by
  rw [byteAt, State.response, List.getD_eq_getElem?_getD, Memory.bytes_getElem? _ h, Option.getD_some]

/-- The prefix in the receive buffer: the length comes first, since only then do both bytes belong to the Response. -/
theorem isAck_response {s : State} :
    isAck s.response = true ↔ 2 ≤ s.rxLen ∧ Memory.read s.rx 0 = 0x5E#8 ∧ Memory.read s.rx 1 = 0x31#8 := by
  rw [isAck_iff, State.response_length]
  refine and_congr_right fun hlen => ?_
  rw [byteAt_response (Nat.lt_of_lt_of_le Nat.zero_lt_two hlen), byteAt_response (Nat.lt_of_lt_of_le Nat.one_lt_two hlen)]

/-! ## The registers (R150) -/

/-- A refusal by the inverter has no diagnostics code (R222), so the log stays. -/
theorem raiseErr_refused (d : Detail) (op : Byte) (s : State) :
    raiseErr .refused d op s = { s with err := .refused, errInfo := d } := by
  simp only [raiseErr, ErrClass.diagCode, logEntry_none, List.append_nil]

theorem exec_ackCheck {s : State} (h : s.rxState = .done) (hl : s.rxLen ≤ 1000) :
    exec .ackCheck s = .next (if isAck s.response then { s with ack := .accepted, err := .none, errInfo := .none }
      else { s with ack := .refused, err := .refused, errInfo := .notAck }) := by
  rw [exec, execAckCheck, withResponse_done h hl, raiseErr_refused]
  cases isAck s.response with
  | true => rfl
  | false => rfl

end Sys2Proof.Machine
end

section
open Sys2Proof Sys2Proof.Machine

/-! ## The statements -/

/-- Settles O35: the model's test on the Response is the statement's on the receive buffer, and the guard of R126 is the rest. -/
theorem ackCheckReadsTwoBytes : Obligations.AckCheckReadsTwoBytes := by
  refine fun s => ⟨fun h hl => ?_, exec_not_done rfl⟩
  simp only [exec_ackCheck h hl, isAck_response]

end


/-! The field decoders (45_field_decoders.md): the common frame of R160 in its three outcomes, each decoder's rule case by case
(R163 to R177), and the search of R178 as the leftmost match with its maximal run. -/

section
namespace Sys2Proof.Machine

/-! ## The common frame (R160) -/

/-- The decoders that run the extractor part and then, on a payload that is not empty, a rule of their own. -/
inductive PayloadDecoder : Instr → RecTag → (ByteString → State → State) → Prop
  | protocolId : PayloadDecoder .decProtocolId .protocolId decodeProtocolId
  | status : PayloadDecoder .decStatus .status decodeStatus
  | mode : PayloadDecoder .decMode .mode decodeMode
  | fault : PayloadDecoder .decFault .fault decodeFault
  | serial : PayloadDecoder .decSerial .serial decodeSerial
  | firmware : PayloadDecoder .decFirmware .firmware decodeFirmware
  | rated : PayloadDecoder .decRated .rated decodeRated
  | model : PayloadDecoder .decModel .model decodeModel
  | time : PayloadDecoder .decTime .time decodeTime

theorem exists_payloadDecoder {d : Instr × RecTag} (hd : d ∈ payloadDecoders) : ∃ k, PayloadDecoder d.1 d.2 k := by
  simp only [payloadDecoders, List.mem_cons, List.not_mem_nil, or_false] at hd
  obtain rfl | rfl | rfl | rfl | rfl | rfl | rfl | rfl | rfl := hd
  · exact ⟨_, .protocolId⟩
  · exact ⟨_, .status⟩
  · exact ⟨_, .mode⟩
  · exact ⟨_, .fault⟩
  · exact ⟨_, .serial⟩
  · exact ⟨_, .firmware⟩
  · exact ⟨_, .rated⟩
  · exact ⟨_, .model⟩
  · exact ⟨_, .time⟩

section Frame

variable {i : Instr} {tag : RecTag} {k : ByteString → State → State}

theorem PayloadDecoder.exec_eq (hk : PayloadDecoder i tag k) (s : State) : exec i s = withPayload i tag s k := by
  cases hk <;> rfl

variable {s : State}

theorem PayloadDecoder.exec_of_no_payload (hk : PayloadDecoder i tag k) (h : s.rxState = .done) (hl : s.rxLen ≤ 1000)
    (hx : extract s.response = none) :
    exec i s = .next (setRecord tag true false .none (extractPart (opcode i) s.response s)) := by
  rw [hk.exec_eq]
  exact withPayload_next.2 (.inr ⟨h, hl, .inl ⟨hx, rfl⟩⟩)

theorem PayloadDecoder.exec_of_empty {c : Cut} (hk : PayloadDecoder i tag k) (h : s.rxState = .done) (hl : s.rxLen ≤ 1000)
    (hx : extract s.response = some c) (hc : c.len = 0) :
    exec i s = .next (noRecord tag .pShort (opcode i) (extractPart (opcode i) s.response s)) := by
  rw [hk.exec_eq]
  exact withPayload_next.2 (.inr ⟨h, hl, .inr (.inl ⟨c, hx, hc, rfl⟩)⟩)

/-- A payload has the length that the extractor answers. -/
theorem length_of_payload {raw p : ByteString} {c : Cut} (hx : extractAt 2 .clean raw = some c) (hp : p = slice raw 5 (5 + c.len)) :
    p.length = c.len := by
  rw [hp, slice_length_of_le (extractAt_some hx).2, Nat.add_sub_cancel_left]

/-- On a payload the decoder's own rule is what is left. -/
theorem PayloadDecoder.exec_of_payload {c : Cut} {p : ByteString} {u : State} (hk : PayloadDecoder i tag k) (h : s.rxState = .done)
    (hl : s.rxLen ≤ 1000) (hx : extractAt 2 .clean s.response = some c) (hc : 0 < c.len)
    (hu : u = extractPart (opcode i) s.response s) (hp : p = slice s.response 5 (5 + c.len)) : exec i s = .next (k p u) := by
  subst hu hp
  rw [hk.exec_eq]
  exact withPayload_payload h hl hx hc

end Frame

/-! ## Byte strings in parts -/

theorem slice_of_eq_append {s a b c : ByteString} {i j : Nat} (hs : s = a ++ b ++ c) (hi : a.length = i) (hj : i + b.length = j) :
    slice s i j = b := by
  subst hs hi hj
  exact slice_append a b c

theorem byteAt_append_cons (a : ByteString) (b : Byte) (c : ByteString) : byteAt (a ++ b :: c) a.length = b := by
  simp [byteAt]

theorem digit_digVal {b : Byte} (h : isDigit b = true) : digit (digVal b) = b := by
  have hb := isDigit_iff.1 h
  rw [digit, digVal, Nat.add_sub_of_le hb.1, BitVec.ofNat_toNat, BitVec.setWidth_eq]

/-- Two digits are the text of the number they name. -/
theorem dec2_num {s : ByteString} (hlen : s.length = 2) (h : allDigits s = true) : dec2 (num s) = s := by
  obtain ⟨a, b, rfl⟩ := List.length_eq_two.1 hlen
  obtain ⟨ha, hb⟩ : isDigit a = true ∧ isDigit b = true := by simpa [allDigits] using h
  have hle := digVal_le hb
  have hnum : num [a, b] = 10 * digVal a + digVal b := by simp [num]
  rw [hnum, dec2, show (10 * digVal a + digVal b) / 10 = digVal a by omega,
    show (10 * digVal a + digVal b) % 10 = digVal b by omega, digit_digVal ha, digit_digVal hb]

theorem timeText_num {h m : ByteString} (hh : h.length = 2) (hm : m.length = 2) (hdh : allDigits h = true)
    (hdm : allDigits m = true) : timeText (num h) (num m) = h ++ [0x3A#8] ++ m := by
  rw [timeText, dec2_num hh hdh, dec2_num hm hdm]

/-! ## Working mode (R164) -/

section Rules

variable {p : ByteString} {u : State}

theorem modeName_eq_getD (code : Nat) : modeName code =
    [ModeName.powerOn, .standby, .bypass, .battery, .fault, .hybrid].getD code .unknown := by
  match code with
  | 0 | 1 | 2 | 3 | 4 | 5 => rfl
  | _ + 6 => rfl

theorem decodeMode_cases : decodeMode p u =
    if p.length < 5 then noRecord .mode .pShort 0x52#8 u
    else if p.take 4 ≠ [0x4D#8, 0x4F#8, 0x44#8, 0x2C#8] ∨ isDigit (byteAt p 4) = false then noRecord .mode .pFormat 0x52#8 u
    else fullRecord .mode (.mode (digVal (byteAt p 4)) (modeName (digVal (byteAt p 4)))) u := by
  rw [decodeMode, slice_zero]
  rfl

/-! ## General status (R165 to R167) -/

theorem decodeStatusWith_of_few {m : List GsEntry} {names : DirField → DirCode → ByteString}
    {missing : GsEntry → List ByteString → Option ByteString} (h : (payloadFields p).length < 28) :
    decodeStatusWith m names missing p u = noRecord .status .pShort 0x51#8 u := by
  rw [decodeStatusWith]
  exact if_pos h

theorem decodeStatusWith_of_enough {m : List GsEntry} {names : DirField → DirCode → ByteString}
    {missing : GsEntry → List ByteString → Option ByteString} (h : 28 ≤ (payloadFields p).length) :
    decodeStatusWith m names missing p u = { u with
      record := ⟨.status, false, gsFieldFails m missing (payloadFields p),
        .status (payloadFields p).length (payloadSlices p) (gsOverlay m names missing (payloadFields p))⟩,
      err := .none, errInfo := .none,
      diag := u.diag ++ if gsFieldFails m missing (payloadFields p) then [⟨.eParse, .pField, 0x51#8⟩] else [] } := by
  rw [decodeStatusWith]
  exact (if_neg (Nat.not_lt.2 h)).trans (warned_eq _ _ _ _ _ _ _)

/-- The two conditions on the field that an entry names leave no choice. -/
theorem eq_gsField {fieldOf : GsEntry → Option ByteString} {missing : GsEntry → List ByteString → Option ByteString}
    {f : List ByteString} (h : ∀ e, (e.index < f.length → fieldOf e = some (f.getD e.index [])) ∧
      (f.length ≤ e.index → fieldOf e = missing e f)) : fieldOf = gsField missing f := by
  funext e
  obtain ⟨hpresent, hlacking⟩ := h e
  rw [gsField_eq]
  split
  next hlt => exact hpresent hlt
  next hge => exact hlacking (Nat.le_of_not_lt hge)

theorem mpptOf_eq (f : ByteString) : mpptOf f =
    if numField f = some 0 then .abnormal else if numField f = some 1 then .normal
    else if numField f = some 2 then .charging else .unknown := by
  unfold mpptOf
  split <;> simp_all

theorem directionOf_eq (names : DirField → DirCode → ByteString) (d : DirField) (f : ByteString) : directionOf names d f =
    if numField f = some 0 then .doNothing else if numField f = some 1 then .named (names d .one)
    else if numField f = some 2 then .named (names d .two) else .unknown := by
  unfold directionOf
  split <;> simp_all

/-! ## Fault and warning status (R168) -/

theorem decodeFault_of_few (h : (payloadFields p).length < 17) : decodeFault p u = noRecord .fault .pShort 0x53#8 u := by
  rw [decodeFault]
  exact if_pos h

theorem decodeFault_of_no_code (h : 17 ≤ (payloadFields p).length) (hcode : numField (fieldAt (payloadFields p) 0) = none) :
    decodeFault p u = shortRecord .fault (.fault (payloadFields p).length (payloadSlices p) none (faultFlags (payloadFields p)))
      .pField 0x53#8 u := by
  simp only [decodeFault, if_neg (Nat.not_lt.2 h), hcode, if_true]
  rfl

theorem decodeFault_of_code {n : Nat} (h : 17 ≤ (payloadFields p).length)
    (hcode : numField (fieldAt (payloadFields p) 0) = some n) : decodeFault p u =
      fullRecord .fault (.fault (payloadFields p).length (payloadSlices p) (some n) (faultFlags (payloadFields p))) u := by
  simp only [decodeFault, if_neg (Nat.not_lt.2 h), hcode, reduceCtorEq, if_false]

/-- A flag is true for the single byte `1`; a field that is not there is none. -/
theorem flagField_fieldAt (f : List ByteString) (i : Nat) : flagField (fieldAt f i) = decide (f[i]? = some [0x31#8]) := by
  rw [flagField, fieldAt, List.getD_eq_getElem?_getD, beq_eq_decide]
  cases f[i]? <;> simp

theorem faultFlags_eq (f : List ByteString) :
    faultFlags f = (List.range 16).map fun i => decide (f[i + 1]? = some [0x31#8]) := by
  simp only [faultFlags, flagField_fieldAt]

/-! ## Serial number (R170) -/

theorem decodeSerial_of_fit (hlen : 2 ≤ p.length) (hdigits : allDigits (p.take 2) = true)
    (hfit : 2 + num (p.take 2) ≤ p.length) :
    decodeSerial p u = fullRecord .serial (.serial (some (num (p.take 2))) ⟨7, num (p.take 2)⟩ true) u := by
  rw [decodeSerial, slice_zero, if_pos ⟨hlen, hdigits⟩]
  exact if_pos (by omega)

theorem decodeSerial_of_mismatch (hlen : 2 ≤ p.length) (hdigits : allDigits (p.take 2) = true)
    (hlack : p.length < 2 + num (p.take 2)) : decodeSerial p u =
      fallbackRecord .serial (.serial (some (num (p.take 2))) ⟨5, p.length⟩ false) .pLengthMismatch 0x54#8 u := by
  rw [decodeSerial, slice_zero, if_pos ⟨hlen, hdigits⟩]
  exact if_neg (by omega)

theorem decodeSerial_of_no_number (h : p.length < 2 ∨ allDigits (p.take 2) = false) :
    decodeSerial p u = fallbackRecord .serial (.serial none ⟨5, p.length⟩ false) .pFormat 0x54#8 u := by
  rw [decodeSerial, slice_zero]
  exact if_neg fun ⟨hlen, hdigits⟩ => h.elim (Nat.not_lt.2 hlen) (by simp [hdigits])

/-! ## Firmware (R171) -/

theorem decodeFirmware_of_three {f0 f1 f2 : ByteString} {more : List ByteString} (h : payloadFields p = f0 :: f1 :: f2 :: more) :
    decodeFirmware p u = fullRecord .firmware (.firmware ⟨5, f0.length⟩ (some ⟨5 + f0.length + 1, f1.length⟩)
      (some ⟨5 + f0.length + 1 + f1.length + 1, f2.length⟩)) u := by
  simp [decodeFirmware, payloadSlices, h, fieldSlices]

theorem decodeFirmware_of_two {f0 f1 : ByteString} (h : payloadFields p = [f0, f1]) : decodeFirmware p u =
    shortRecord .firmware (.firmware ⟨5, f0.length⟩ (some ⟨5 + f0.length + 1, f1.length⟩) none) .pShort 0x55#8 u := by
  simp [decodeFirmware, payloadSlices, h, fieldSlices, opcode]

theorem decodeFirmware_of_one {f0 : ByteString} (h : payloadFields p = [f0]) : decodeFirmware p u =
    shortRecord .firmware (.firmware ⟨5, f0.length⟩ none none) .pShort 0x55#8 u := by
  simp [decodeFirmware, payloadSlices, h, fieldSlices, opcode]

/-! ## Rated information (R172, R173) -/

theorem enumValue_eq (enums : EnumTable → Nat → Option ByteString) (t : EnumTable) (f : ByteString) :
    enumValue enums t f = match numField f with
      | none => RatedValue.unknown
      | some code => ((enums t code).map RatedValue.named).getD RatedValue.unknown := by
  rw [enumValue]
  cases numField f with
  | none => rfl
  | some code => cases h : enums t code <;> simp [h]

/-- The overlay with each value written out by the kind of its entry. -/
theorem ratedOverlay_eq (m : List RatedEntry) (enums : EnumTable → Nat → Option ByteString) (f : List ByteString) :
    ratedOverlay m enums f = (m.filter (fun e => decide (e.index < 25))).map
      (fun e => (e.name, if e.index < f.length then
        (match e.kind with
         | .int => RatedValue.int (numField (f.getD e.index []))
         | .tenth => RatedValue.tenth (numField (f.getD e.index []))
         | .enum table =>
           match numField (f.getD e.index []) with
           | none => RatedValue.unknown
           | some code => ((enums table code).map RatedValue.named).getD RatedValue.unknown)
        else RatedValue.absent)) := by
  refine List.map_congr_left fun e _ => congrArg (Prod.mk e.name) ?_
  rw [ratedValue]
  refine if_congr Iff.rfl ?_ rfl
  cases e.kind with
  | int => rfl
  | tenth => rfl
  | enum table => exact enumValue_eq enums table _

theorem decodeRatedWith_of_enough {m : List RatedEntry} {enums : EnumTable → Nat → Option ByteString}
    (h : 21 ≤ (payloadFields p).length) : decodeRatedWith m enums p u = { u with
      record := ⟨.rated, false, ratedFieldFails m (payloadFields p),
        .rated (payloadFields p).length (payloadSlices p) (ratedOverlay m enums (payloadFields p))⟩,
      err := .none, errInfo := .none,
      diag := u.diag ++ if ratedFieldFails m (payloadFields p) then [⟨.eParse, .pField, 0x56#8⟩] else [] } := by
  have hshort : decide ((payloadFields p).length < Config.ratedMinFields) = false := decide_eq_false (Nat.not_lt.2 h)
  simp only [decodeRatedWith, warned_eq, hshort, Bool.or_false]
  rfl

theorem decodeRatedWith_of_few {m : List RatedEntry} {enums : EnumTable → Nat → Option ByteString}
    (h : (payloadFields p).length < 21) : decodeRatedWith m enums p u = { u with
      record := ⟨.rated, false, true,
        .rated (payloadFields p).length (payloadSlices p) (ratedOverlay m enums (payloadFields p))⟩,
      err := .parse, errInfo := .pShort,
      diag := u.diag ++ (if ratedFieldFails m (payloadFields p) then [⟨.eParse, .pField, 0x56#8⟩] else []) ++
        [⟨.eParse, .pShort, 0x56#8⟩] } := by
  have hshort : decide ((payloadFields p).length < Config.ratedMinFields) = true := decide_eq_true h
  simp only [decodeRatedWith, warned_eq, hshort, Bool.or_true]
  rfl

/-! ## Machine model (R174) -/

theorem decodeModelWith_of_short {table : ByteString → Option ByteString} (h : p.length < 2) :
    decodeModelWith table p u = noRecord .model .pShort 0x57#8 u := by
  rw [decodeModelWith]
  exact if_pos h

theorem decodeModelWith_of_known {table : ByteString → Option ByteString} {name : ByteString} (h : 2 ≤ p.length)
    (hname : table (p.take 2) = some name) : decodeModelWith table p u = fullRecord .model (.model ⟨5, 2⟩ true name) u := by
  simp [decodeModelWith, Nat.not_lt.2 h, hname]

theorem decodeModelWith_of_unknown {table : ByteString → Option ByteString} (h : 2 ≤ p.length) (hname : table (p.take 2) = none) :
    decodeModelWith table p u = fullRecord .model (.model ⟨5, 2⟩ false unknownModel) u := by
  simp [decodeModelWith, Nat.not_lt.2 h, hname]

/-! ## Time (R175) -/

theorem decodeTime_of_short (h : p.length < 14) : decodeTime p u = noRecord .time .pShort 0x58#8 u := by
  rw [decodeTime]
  exact if_pos h

theorem decodeTime_of_no_digits (hlen : 14 ≤ p.length) (h : allDigits (p.take 14) = false) :
    decodeTime p u = noRecord .time .pFormat 0x58#8 u := by
  rw [decodeTime, if_neg (Nat.not_lt.2 hlen), slice_zero]
  exact if_pos h

theorem decodeTime_of_parts {y mo d h mi sec more : ByteString} (hp : p = y ++ mo ++ d ++ h ++ mi ++ sec ++ more)
    (hy : y.length = 4) (hmo : mo.length = 2) (hd : d.length = 2) (hh : h.length = 2) (hmi : mi.length = 2)
    (hsec : sec.length = 2) (hdigits : allDigits (y ++ mo ++ d ++ h ++ mi ++ sec) = true) :
    decodeTime p u = fullRecord .time (.time (num y) (num mo) (num d) (num h) (num mi) (num sec)
      (y ++ [0x2D#8] ++ mo ++ [0x2D#8] ++ d ++ [0x54#8] ++ h ++ [0x3A#8] ++ mi ++ [0x3A#8] ++ sec)) u := by
  have hlen : ¬p.length < 14 := by simp only [hp, List.length_append]; omega
  have hall : slice p 0 14 = y ++ mo ++ d ++ h ++ mi ++ sec :=
    slice_of_eq_append (a := []) (c := more) (by simp [hp]) rfl (by simp only [List.length_append]; omega)
  have hyear : slice p 0 4 = y := slice_of_eq_append (a := []) (c := mo ++ d ++ h ++ mi ++ sec ++ more) (by simp [hp]) rfl (by omega)
  have hmonth : slice p 4 6 = mo := slice_of_eq_append (a := y) (c := d ++ h ++ mi ++ sec ++ more) (by simp [hp]) hy (by omega)
  have hday : slice p 6 8 = d :=
    slice_of_eq_append (a := y ++ mo) (c := h ++ mi ++ sec ++ more) (by simp [hp]) (by simp [hy, hmo]) (by omega)
  have hhour : slice p 8 10 = h :=
    slice_of_eq_append (a := y ++ mo ++ d) (c := mi ++ sec ++ more) (by simp [hp]) (by simp [hy, hmo, hd]) (by omega)
  have hminute : slice p 10 12 = mi :=
    slice_of_eq_append (a := y ++ mo ++ d ++ h) (c := sec ++ more) (by simp [hp]) (by simp [hy, hmo, hd, hh]) (by omega)
  have hsecond : slice p 12 14 = sec :=
    slice_of_eq_append (a := y ++ mo ++ d ++ h ++ mi) (c := more) hp (by simp [hy, hmo, hd, hh, hmi]) (by omega)
  rw [decodeTime, if_neg hlen, isoText, hall, hdigits, hyear, hmonth, hday, hhour, hminute, hsecond]
  rfl

/-! ## Schedule (R176, R177) -/

theorem scheduleShape_iff : scheduleShape p = true ↔
    9 ≤ p.length ∧ allDigits (p.take 8) = true ∧ (byteAt p 8 = 0x30#8 ∨ byteAt p 8 = 0x31#8) := by
  simp [scheduleShape, and_assoc]

theorem decodeSchedule_of_shape (h : scheduleShape p = true) : decodeSchedule p u = fullRecord .schedule (scheduleOf p) u := by
  rw [decodeSchedule, if_pos h]

theorem decodeSchedule_of_short (h : p.length < 9) :
    decodeSchedule p u = warnDiag .pShort 0x59#8 (fullRecord .schedule defaultSchedule u) := by
  have hshape : ¬scheduleShape p = true := fun hs => Nat.not_lt.2 (scheduleShape_iff.1 hs).1 h
  rw [decodeSchedule, if_neg hshape, if_pos h]
  rfl

theorem decodeSchedule_of_misshapen (hlen : 9 ≤ p.length)
    (h : (∃ b ∈ p.take 8, isDigit b = false) ∨ (byteAt p 8 ≠ 0x30#8 ∧ byteAt p 8 ≠ 0x31#8)) :
    decodeSchedule p u = warnDiag .pFormat 0x59#8 (fullRecord .schedule defaultSchedule u) := by
  have hshape : ¬scheduleShape p = true := by
    rw [scheduleShape_iff]
    rintro ⟨-, hdigits, henabled⟩
    rcases h with hbad | ⟨h0, h1⟩
    · simp [allDigits_eq_false.2 hbad] at hdigits
    · exact henabled.elim h0 h1
  rw [decodeSchedule, if_neg hshape, if_neg (Nat.not_lt.2 hlen)]
  rfl

/-- A payload in the parts that R176 names is well shaped, and its window is theirs. -/
theorem schedule_of_parts {sh sm eh em more : ByteString} {e : Byte} (hp : p = sh ++ sm ++ eh ++ em ++ e :: more)
    (hsh : sh.length = 2) (hsm : sm.length = 2) (heh : eh.length = 2) (hem : em.length = 2)
    (hdigits : allDigits (sh ++ sm ++ eh ++ em) = true) (he : e = 0x30#8 ∨ e = 0x31#8) : scheduleShape p = true ∧
      scheduleOf p = .schedule (num sh) (num sm) (num eh) (num em) (decide (e = 0x31#8)) false := by
  have hhead : (sh ++ sm ++ eh ++ em).length = 8 := by simp only [List.length_append]; omega
  have hflag : byteAt p 8 = e := by rw [hp, ← hhead, byteAt_append_cons]
  have hall : p.take 8 = sh ++ sm ++ eh ++ em := by rw [hp, ← hhead, List.take_left]
  have hstartH : slice p 0 2 = sh := slice_of_eq_append (a := []) (c := sm ++ eh ++ em ++ e :: more) (by simp [hp]) rfl (by omega)
  have hstartM : slice p 2 4 = sm := slice_of_eq_append (a := sh) (c := eh ++ em ++ e :: more) (by simp [hp]) hsh (by omega)
  have hendH : slice p 4 6 = eh :=
    slice_of_eq_append (a := sh ++ sm) (c := em ++ e :: more) (by simp [hp]) (by simp [hsh, hsm]) (by omega)
  have hendM : slice p 6 8 = em :=
    slice_of_eq_append (a := sh ++ sm ++ eh) (c := e :: more) hp (by simp [hsh, hsm, heh]) (by omega)
  refine ⟨scheduleShape_iff.2 ⟨?_, by rwa [hall], by rwa [hflag]⟩, ?_⟩
  · rw [hp, List.length_append, hhead, List.length_cons]
    omega
  · rw [scheduleOf, hstartH, hstartM, hendH, hendM, hflag, beq_eq_decide]

end Rules

section Schedule

variable {s u : State} (h : s.rxState = .done) (hl : s.rxLen ≤ 1000) (hu : u = extractPart 0x59#8 s.response s)
include h hl hu

theorem exec_decSchedule_of_no_payload (hx : extract s.response = none) :
    exec .decSchedule s = .next (fullRecord .schedule defaultSchedule u) := by
  subst hu
  rw [exec, execDecSchedule, withResponse_done h hl]
  exact if_pos (by simp [hx])

theorem exec_decSchedule_of_payload {c : Cut} (hx : extract s.response = some c) :
    exec .decSchedule s = .next (decodeSchedule (slice s.response 5 (5 + c.len)) u) := by
  subst hu
  rw [exec, execDecSchedule, withResponse_done h hl]
  refine (if_neg (by simp [hx])).trans ?_
  rw [extractPart_pay, hx]
  rfl

end Schedule

/-! ## Energy (R178) -/

/-- A letter `D` with four digits after it stands at index `i`. -/
def MatchAt (s : ByteString) (i : Nat) : Prop :=
  i + 4 < s.length ∧ s[i]? = some 0x44#8 ∧ allDigits (slice s (i + 1) (i + 5)) = true

theorem matchAt_cons_zero {b : Byte} {s : ByteString} :
    MatchAt (b :: s) 0 ↔ b = 0x44#8 ∧ 4 ≤ s.length ∧ allDigits (s.take 4) = true := by
  have hslice : slice (b :: s) (0 + 1) (0 + 5) = s.take 4 := rfl
  rw [MatchAt, hslice, List.length_cons, List.getElem?_cons_zero, Option.some.injEq, and_left_comm]
  refine and_congr_right fun _ => and_congr_left fun _ => ?_
  omega

theorem matchAt_cons_succ {b : Byte} {s : ByteString} {i : Nat} : MatchAt (b :: s) (i + 1) ↔ MatchAt s i := by
  have hslice : slice (b :: s) (i + 1 + 1) (i + 1 + 5) = slice s (i + 1) (i + 5) := by
    rw [show i + 1 + 5 = i + 5 + 1 by omega]
    rfl
  rw [MatchAt, MatchAt, hslice, List.length_cons, List.getElem?_cons_succ]
  refine and_congr_left fun _ => ?_
  omega

theorem energyRun_cons_of_match {b : Byte} {s : ByteString} (h : MatchAt (b :: s) 0) :
    energyRun (b :: s) = some ((s.drop 3).takeWhile isDigit) := by
  rw [energyRun, if_pos (matchAt_cons_zero.1 h)]

theorem energyRun_cons_of_no_match {b : Byte} {s : ByteString} (h : ¬MatchAt (b :: s) 0) : energyRun (b :: s) = energyRun s := by
  rw [energyRun, if_neg (mt matchAt_cons_zero.2 h)]

theorem energyRun_eq_none {s : ByteString} : energyRun s = none ↔ ∀ i, ¬MatchAt s i := by
  induction s with
  | nil => simp [energyRun, MatchAt]
  | cons b s ih =>
    rw [← Nat.and_forall_add_one]
    simp only [matchAt_cons_succ]
    by_cases h : MatchAt (b :: s) 0
    · simp [energyRun_cons_of_match h, h]
    · simp [energyRun_cons_of_no_match h, h, ih]

/-- The search stops at the leftmost match and takes the digits from the fourth on. -/
theorem energyRun_eq_some {s run : ByteString} : energyRun s = some run ↔
    ∃ i, MatchAt s i ∧ (∀ k, k < i → ¬MatchAt s k) ∧ run = (s.drop (i + 4)).takeWhile isDigit := by
  induction s with
  | nil => simp [energyRun, MatchAt]
  | cons b s ih =>
    rw [← Nat.or_exists_add_one]
    simp only [Nat.forall_lt_succ_left, matchAt_cons_succ]
    by_cases h : MatchAt (b :: s) 0
    · simp [energyRun_cons_of_match h, h, eq_comm]
    · simp [energyRun_cons_of_no_match h, h, ih, Nat.add_right_comm _ 1 4]

/-- The digits at the beginning are the ones before the first byte that is none, or before the end. -/
theorem eq_takeWhile_isDigit_iff {s run : ByteString} : run = s.takeWhile isDigit ↔
    ∃ n, n ≤ s.length ∧ run = s.take n ∧ allDigits run = true ∧ (n < s.length → isDigit (byteAt s n) = false) := by
  constructor
  · rintro rfl
    refine ⟨s.findIdx fun b => !isDigit b, List.findIdx_le_length, List.takeWhile_eq_take_findIdx_not,
      allDigits_takeWhile s, fun hn => ?_⟩
    have hstop := List.findIdx_getElem (w := hn)
    simpa [byteAt, List.getElem?_eq_getElem hn] using hstop
  · rintro ⟨n, hn, rfl, hdigits, hstop⟩
    have hrest : (s.drop n).takeWhile isDigit = [] := by
      rw [List.takeWhile_eq_nil_iff]
      intro hpos
      rw [List.length_drop] at hpos
      have hlt : n < s.length := by omega
      simpa [byteAt, List.getElem?_eq_getElem hlt] using hstop hlt
    rw [allDigits, List.all_eq_true] at hdigits
    conv_rhs => rw [← List.take_append_drop n s, List.takeWhile_append_of_pos hdigits, hrest, List.append_nil]

theorem byteAt_drop (s : ByteString) (a n : Nat) : byteAt (s.drop a) n = byteAt s (a + n) := by
  simp [byteAt]

/-- The fourth digit of a match, with which its run begins. -/
theorem MatchAt.isDigit_fourth {s : ByteString} {i : Nat} (h : MatchAt s i) : isDigit (byteAt s (i + 4)) = true := by
  obtain ⟨hlen, -, hdigits⟩ := h
  rw [allDigits, List.all_eq_true] at hdigits
  refine hdigits _ (List.mem_of_getElem? (i := 3) ?_)
  simp [slice, byteAt, List.getElem?_take_of_lt, List.getElem?_eq_getElem hlen, Nat.add_assoc]

/-- The run of a match goes from the fourth digit on to the first byte that is no digit. -/
theorem eq_run_iff {s run : ByteString} {i : Nat} (h : MatchAt s i) : run = (s.drop (i + 4)).takeWhile isDigit ↔
    ∃ j, i + 5 ≤ j ∧ j ≤ s.length ∧ run = slice s (i + 4) j ∧ allDigits run = true ∧
      (j < s.length → isDigit (byteAt s j) = false) := by
  have hlen := h.1
  simp only [eq_takeWhile_isDigit_iff, byteAt_drop, List.length_drop, slice, List.drop_take]
  constructor
  · rintro ⟨n, hn, hrun, hdigits, hstop⟩
    have hne : n ≠ 0 := by
      rintro rfl
      simp [h.isDigit_fourth] at hstop
      omega
    exact ⟨i + 4 + n, by omega, by omega, by rwa [Nat.add_sub_cancel_left], hdigits, fun hj => hstop (by omega)⟩
  · rintro ⟨j, hij, hj, hrun, hdigits, hstop⟩
    exact ⟨j - (i + 4), by omega, hrun, hdigits, fun hn => by rw [Nat.add_sub_of_le (by omega)]; exact hstop (by omega)⟩

theorem exec_decEnergy {s : State} (h : s.rxState = .done) (hl : s.rxLen ≤ 1000) :
    exec .decEnergy s = .next (decodeEnergy s.response s) := by
  rw [exec, execDecEnergy, withResponse_done h hl]

theorem decodeEnergy_of_none {raw : ByteString} {s : State} (h : energyRun (raw.filter isAlnum) = none) :
    decodeEnergy raw s = noRecord .energy .pFormat 0x5A#8 s := by
  rw [decodeEnergy, h]
  rfl

theorem decodeEnergy_of_some {raw run : ByteString} {s : State} (h : energyRun (raw.filter isAlnum) = some run) :
    decodeEnergy raw s = fullRecord .energy (.energy (num run) (num run / 1000) (num run % 1000)) s := by
  rw [decodeEnergy, h]

end Sys2Proof.Machine
end

section
open Sys2Proof Sys2Proof.Machine

/-! ## The statements -/

/-- Settles O36: the two ways in which the common frame stops before the decoder's own rule. -/
theorem decodersWithoutAPayload : Obligations.DecodersWithoutAPayload := by
  rintro s d hd h hl u rfl
  obtain ⟨k, hk⟩ := exists_payloadDecoder hd
  exact ⟨hk.exec_of_no_payload h hl, fun fallback hx => hk.exec_of_empty h hl hx rfl⟩

/-- Settles O37: the rule of R163 writes the payload's slice. -/
theorem decProtocolIdTakesThePayload : Obligations.DecProtocolIdTakesThePayload := by
  intro s c h hl hx hc u hu
  rw [PayloadDecoder.protocolId.exec_of_payload h hl hx hc hu rfl, decodeProtocolId, wholePayload, length_of_payload hx rfl]
  rfl

/-- Settles O38: too few fields, or the record of R165 with the overlay and the warning that the fields of the entries determine; then
the table of R167. -/
theorem decStatusReadsTheFields : Obligations.DecStatusReadsTheFields := by
  refine ⟨?_, fun names d f => ?_⟩
  · rintro s c h hl hx hc u f hu rfl
    rw [PayloadDecoder.status.exec_of_payload h hl hx hc hu rfl]
    refine ⟨fun hfew => ?_, ?_⟩
    · exact congrArg _ (decodeStatusWith_of_few hfew)
    · rintro henough fieldOf overlay fails hfield rfl hfails
      obtain rfl := eq_gsField hfield
      obtain rfl : fails = gsFieldFails Config.gsMap Config.gsMissing _ :=
        Bool.eq_iff_iff.2 (hfails.trans (gsFieldFails_iff _ _ _).symm)
      exact congrArg _ (decodeStatusWith_of_enough henough)
  · refine ⟨rfl, rfl, congrArg _ (beq_eq_decide _ _), fun h => ?_, fun h => ?_, fun h => ?_, fun h0 h1 h2 => ?_⟩
    · simp [gsValue, mpptOf_eq, directionOf_eq, h]
    · simp [gsValue, mpptOf_eq, directionOf_eq, h]
    · simp [gsValue, mpptOf_eq, directionOf_eq, h]
    · simp [gsValue, mpptOf_eq, directionOf_eq, h0, h1, h2]

/-- Settles O39: the checks of R164 in their order, and its table of names. -/
theorem decModeReadsTheDigit : Obligations.DecModeReadsTheDigit := by
  intro s c h hl hx hc u p hu hp
  rw [PayloadDecoder.mode.exec_of_payload h hl hx hc hu hp, decodeMode_cases, length_of_payload hx hp, modeName_eq_getD]
  rfl

/-- Settles O40: too few fields, or the flags and the code of R168, which may be no number. -/
theorem decFaultReadsCodeAndFlags : Obligations.DecFaultReadsCodeAndFlags := by
  rintro s c h hl hx hc u f flags hu rfl hflags
  rw [← faultFlags_eq] at hflags
  subst hflags
  rw [PayloadDecoder.fault.exec_of_payload h hl hx hc hu rfl]
  refine ⟨fun hfew => ?_, fun henough hcode => ?_, fun henough n hcode => ?_⟩
  · exact congrArg _ (decodeFault_of_few hfew)
  · exact congrArg _ (decodeFault_of_no_code henough hcode)
  · exact congrArg _ (decodeFault_of_code henough hcode)

/-- Settles O41: the three cases of R170. -/
theorem decSerialChecksThePrefix : Obligations.DecSerialChecksThePrefix := by
  rintro s c h hl hx hc u p N hu hp rfl
  rw [PayloadDecoder.serial.exec_of_payload h hl hx hc hu hp, ← length_of_payload hx hp]
  refine ⟨fun hlen hdigits hfit => ?_, fun hlen hdigits hlack => ?_, fun hnone => ?_⟩
  · exact congrArg _ (decodeSerial_of_fit hlen hdigits hfit)
  · exact congrArg _ (decodeSerial_of_mismatch hlen hdigits hlack)
  · exact congrArg _ (decodeSerial_of_no_number hnone)

/-- Settles O42: the slices of three fields, of two and of one. -/
theorem decFirmwareReadsThreeStrings : Obligations.DecFirmwareReadsThreeStrings := by
  rintro s c h hl hx hc u f hu rfl
  have hsecond (n : Nat) : 6 + n = 5 + n + 1 := by omega
  have hthird (n m : Nat) : 7 + n + m = 5 + n + 1 + m + 1 := by omega
  simp only [PayloadDecoder.firmware.exec_of_payload h hl hx hc hu rfl, hsecond, hthird]
  refine ⟨fun f0 f1 f2 more hf => ?_, fun f0 f1 hf => ?_, fun f0 hf => ?_⟩
  · exact congrArg _ (decodeFirmware_of_three hf)
  · exact congrArg _ (decodeFirmware_of_two hf)
  · exact congrArg _ (decodeFirmware_of_one hf)

/-- Settles O43: the overlay and the warning are the statement's, and the number of fields decides on the error. -/
theorem decRatedDegradesToAPartialRecord : Obligations.DecRatedDegradesToAPartialRecord := by
  rintro s c h hl hx hc u f overlay fails hu rfl hoverlay hfails
  obtain rfl := hoverlay.trans (ratedOverlay_eq _ _ _).symm
  obtain rfl : fails = ratedFieldFails Config.ratedMap _ := Bool.eq_iff_iff.2 (hfails.trans (ratedFieldFails_iff _ _).symm)
  rw [PayloadDecoder.rated.exec_of_payload h hl hx hc hu rfl]
  exact ⟨fun henough => congrArg _ (decodeRatedWith_of_enough henough), fun hfew => congrArg _ (decodeRatedWith_of_few hfew)⟩

/-- Settles O44: the two bytes and the three answers of R174. -/
theorem decModelLooksUpTwoBytes : Obligations.DecModelLooksUpTwoBytes := by
  intro s c h hl hx hc u p hu hp
  rw [PayloadDecoder.model.exec_of_payload h hl hx hc hu hp, ← length_of_payload hx hp]
  refine ⟨fun hshort => ?_, fun hlen name hname => ?_, fun hlen hname => ?_⟩
  · exact congrArg _ (decodeModelWith_of_short hshort)
  · exact congrArg _ (decodeModelWith_of_known hlen hname)
  · exact congrArg _ (decodeModelWith_of_unknown hlen hname)

/-- Settles O45: the checks of R175 in their order, and the parts of a payload that passes them. -/
theorem decTimeReadsFourteenDigits : Obligations.DecTimeReadsFourteenDigits := by
  intro s c h hl hx hc u p hu hp
  rw [PayloadDecoder.time.exec_of_payload h hl hx hc hu hp, ← length_of_payload hx hp]
  refine ⟨fun hshort => ?_, fun hlen hbad => ?_, fun y mo d hr mi sec more hparts hy hmo hd hh hmi hsec hdigits => ?_⟩
  · exact congrArg _ (decodeTime_of_short hshort)
  · exact congrArg _ (decodeTime_of_no_digits hlen (allDigits_eq_false.2 hbad))
  · exact congrArg _ (decodeTime_of_parts hparts hy hmo hd hh hmi hsec hdigits)

/-- Settles O46: without a payload the default, else the three cases of R176; the times as text are their own digits. -/
theorem decScheduleNeverFails : Obligations.DecScheduleNeverFails := by
  refine ⟨fun s => exec_not_done rfl, ?_, by decide⟩
  intro s h hl u hu
  refine ⟨exec_decSchedule_of_no_payload h hl hu, fun c p hx hp => ?_⟩
  rw [exec_decSchedule_of_payload h hl hu hx, ← hp, ← length_of_payload hx hp]
  refine ⟨fun sh sm eh em more e hparts hsh hsm heh hem hdigits he => ?_, fun hshort => ?_, fun hlen hbad => ?_⟩
  · obtain ⟨hshape, hwindow⟩ := schedule_of_parts hparts hsh hsm heh hem hdigits he
    simp only [allDigits_append, Bool.and_eq_true] at hdigits
    obtain ⟨⟨⟨hdsh, hdsm⟩, hdeh⟩, hdem⟩ := hdigits
    refine ⟨?_, timeText_num hsh hsm hdsh hdsm, timeText_num heh hem hdeh hdem⟩
    rw [decodeSchedule_of_shape hshape, hwindow]
    rfl
  · exact congrArg _ (decodeSchedule_of_short hshort)
  · exact congrArg _ (decodeSchedule_of_misshapen hlen hbad)

/-- Settles O48: the search is the leftmost match, and its digits are the maximal run. -/
theorem energyRunIsTheLeftmostMatch : Obligations.EnergyRunIsTheLeftmostMatch := by
  intro s run
  rw [energyRun_eq_some]
  constructor
  · rintro ⟨i, hmatch, hfirst, hrun⟩
    obtain ⟨j, hj⟩ := (eq_run_iff hmatch).1 hrun
    obtain ⟨hlen, hletter, hdigits⟩ := hmatch
    exact ⟨i, j, hlen, hletter, hdigits, hfirst, hj⟩
  · rintro ⟨i, j, hlen, hletter, hdigits, hfirst, hj⟩
    have hmatch : MatchAt s i := ⟨hlen, hletter, hdigits⟩
    exact ⟨i, hmatch, hfirst, (eq_run_iff hmatch).2 ⟨j, hj⟩⟩

/-- Settles O47: the run that the statement describes is the one that the search finds. -/
theorem decEnergyReadsTheDigitRun : Obligations.DecEnergyReadsTheDigitRun := by
  refine ⟨fun s => exec_not_done rfl, ?_⟩
  rintro s str isMatch h hl rfl hmatch
  obtain rfl : isMatch = MatchAt (s.response.filter isAlnum) := funext fun i => propext (hmatch i)
  rw [exec_decEnergy h hl]
  refine ⟨fun hnone => ?_, fun i j run hi hfirst hij hj hrun hdigits hstop => ?_⟩
  · exact congrArg _ (decodeEnergy_of_none (energyRun_eq_none.2 hnone))
  · have hmaximal := (eq_run_iff hi).2 ⟨j, hij, hj, hrun, hdigits, hstop⟩
    exact congrArg _ (decodeEnergy_of_some (energyRun_eq_some.2 ⟨i, hi, hfirst, hmaximal⟩))

end

/-! The outcomes (60_exceptions.md): no step stops (R231), every operation reports and logs what its row of the table lists (R223, R224),
and the Host's operations overwrite the outcome before them (R221). -/

section
namespace Sys2Proof.Machine

/-! ## Every operation completes (R231) -/

theorem whenNotBusy_completes {i : Instr} {s : State} {k : State → Result} (h : Completes (k s)) : Completes (whenNotBusy i s k) := by
  by_cases hidle : s.txPhase = .idle
  · rwa [whenNotBusy_idle hidle]
  · exact ⟨_, whenNotBusy_busy hidle⟩

theorem execCmdPush_completes (b : Byte) (s : State) : Completes (execCmdPush b s) := by
  refine whenNotBusy_completes ?_
  split <;> exact ⟨_, rfl⟩

/-- `TX_POP` never leaves the command buffer: a frame under construction has its index below the command's length. -/
theorem execTxPop_completes {s : State} (hb : BuffersOk s) (hs : BuilderOk s) : Completes (exec .txPop s) := by
  by_cases hidle : s.txPhase = .idle
  · exact ⟨_, exec_txPop_idle hidle⟩
  · obtain ⟨t, ht, -⟩ := (hs.inFrame hidle).pop hb.cmdLen_le
    exact ⟨t, ht⟩

/-- Operation by operation, no fault and no refusal. -/
theorem exec_completes (i : Instr) {s : State} (hb : BuffersOk s) (hs : BuilderOk s) (hc : CaptureOk s) : Completes (exec i s) := by
  cases i with
  | reset => exact ⟨_, rfl⟩
  | crcInit | crcByte | crcBit | cmdClear =>
    rw [exec]
    exact whenNotBusy_completes ⟨_, rfl⟩
  | cmdPush b => exact execCmdPush_completes b s
  | txStart m => exact ⟨_, exec_txStart m s⟩
  | txPop => exact execTxPop_completes hb hs
  | _ => exact exec_completes_outsideBuilder rfl (hc.receptive hb)

/-! ## The rows of the table (R223, R224) -/

/-- An entry that the operation `i` may add to the log. -/
def InRow (i : Instr) (x : DiagEntry) : Prop :=
  x.op = opcode i ∧ x.detail ∈ errorsOf i ++ warningsOf i ∧ x.detail.diagCode = some x.code

/-- From `s` to `t` the log only grows, by entries that the operation `i` may add. -/
def Logged (i : Instr) (s t : State) : Prop := ∃ new, t.diag = s.diag ++ new ∧ ∀ x ∈ new, InRow i x

/-- The operation `i`, taking `s` to `t`, leaves an outcome and a log that its row of the table allows. -/
structure Reports (i : Instr) (s t : State) : Prop where
  outcome : (writesOutcome i = false ∧ t.err = s.err ∧ t.errInfo = s.errInfo) ∨ (t.err = .none ∧ t.errInfo = .none) ∨
    (t.errInfo ∈ errorsOf i ∧ t.errInfo.errClass = some t.err)
  log : Logged i s t

/-- The two columns of R223 agree: an error is logged under the code of its class. -/
theorem diagCode_of_errClass {d : Detail} {c : ErrClass} (h : d.errClass = some c) : c.diagCode = d.diagCode := by
  cases d <;> cases h <;> rfl

section Rows

variable {i : Instr} {s u : State} {d : Detail}

theorem Logged.of_eq (h : u.diag = s.diag) : Logged i s u := ⟨[], by simp [h], by simp⟩

theorem Logged.append {t : State} {more : List DiagEntry} (h : Logged i s u) (ht : t.diag = u.diag ++ more)
    (hmore : ∀ x ∈ more, InRow i x) : Logged i s t := by
  obtain ⟨new, hu, hnew⟩ := h
  exact ⟨new ++ more, by rw [ht, hu, List.append_assoc], List.forall_mem_append.2 ⟨hnew, hmore⟩⟩

/-- What a logged finding adds stands in the row with the finding. -/
theorem inRow_logEntry (hd : d ∈ errorsOf i ++ warningsOf i) : ∀ x ∈ logEntry d.diagCode d (opcode i), InRow i x := by
  intro x hx
  cases hcode : d.diagCode with
  | none => simp [hcode] at hx
  | some c =>
    rw [hcode, logEntry_some, List.mem_singleton] at hx
    subst hx
    exact ⟨rfl, hd, hcode⟩

theorem Reports.untouched (hi : writesOutcome i = false) (herr : u.err = s.err) (hinfo : u.errInfo = s.errInfo)
    (hdiag : u.diag = s.diag) : Reports i s u := ⟨.inl ⟨hi, herr, hinfo⟩, .of_eq hdiag⟩

theorem Reports.success (herr : u.err = .none) (hinfo : u.errInfo = .none) (hlog : Logged i s u) : Reports i s u :=
  ⟨.inr (.inl ⟨herr, hinfo⟩), hlog⟩

/-- An error of the row, delivered with its class. -/
theorem Reports.raise {c : ErrClass} (h : Logged i s u) (hd : d ∈ errorsOf i) (hc : d.errClass = some c) :
    Reports i s (raiseErr c d (opcode i) u) where
  outcome := .inr (.inr ⟨hd, hc⟩)
  log := h.append (raiseErr_diag u c d _) (diagCode_of_errClass hc ▸ inRow_logEntry (List.mem_append_left _ hd))

/-- A warning of the row, logged where its condition holds; the outcome stays. -/
theorem Reports.warnIf (h : Reports i s u) (b : Bool) (hd : d ∈ warningsOf i) : Reports i s (warnIf b d (opcode i) u) := by
  cases b with
  | false => exact h
  | true => exact ⟨h.outcome, h.log.append (warnDiag_diag u d _) (inRow_logEntry (List.mem_append_right _ hd))⟩

/-! ## The validator's and the extractor's parts (R130, R137) -/

/-- A fatal reason is an error of the validator's row. -/
theorem reason_detail_of_fatal {raw : ByteString} (h : (validate raw).ok = false) :
    (validate raw).reason.detail ∈ validateErrors ∧ (validate raw).reason.detail.errClass = some .protocol := by
  have hreason : (validate raw).reason ≠ .none := fun hnone =>
    Bool.eq_false_iff.1 h ((validateAt_reason Config.lenTolerance raw).1.2 hnone)
  cases hr : (validate raw).reason with
  | none => exact absurd hr hreason
  | _ => decide

theorem validatePart_reports (raw : ByteString) (s : State) :
    Reports .validate s (validatePart (opcode .validate) raw s) := by
  simp only [validatePart]
  split
  next =>
    have hvalid : Reports .validate s (succeed { s with verdict := (validate raw).regs }) := .success rfl rfl (.of_eq rfl)
    exact (hvalid.warnIf _ (by decide)).warnIf _ (by decide)
  next hfatal =>
    obtain ⟨hmem, hclass⟩ := reason_detail_of_fatal (Bool.eq_false_iff.2 hfatal)
    exact .raise (.of_eq rfl) hmem hclass

/-- The extractor's part logs under the opcode of the operation that runs it. -/
theorem extractPart_logged (hi : extractErrors ++ extractWarnings ⊆ errorsOf i ++ warningsOf i) (raw : ByteString) (s : State) :
    Logged i s (extractPart (opcode i) raw s) := by
  obtain ⟨e, d, new, heq, -, -, hnew⟩ := extractPart_eq (opcode i) raw
  have hrow : ∀ d ∈ [Detail.vEmpty, .vMarker, .vLenField, .vLength, .xShort, .wLengthSoft, .wNoterm, .xFallback],
      d ∈ extractErrors ++ extractWarnings ∧ d.diagCode = some .eProto := by decide
  refine ⟨new, by rw [heq], fun x hx => ?_⟩
  obtain ⟨hop, hcode, hdetail⟩ := hnew x hx
  obtain ⟨hmem, hproto⟩ := hrow _ hdetail
  exact ⟨hop, hi hmem, hcode ▸ hproto⟩

/-- The extractor's part reports as `EXTRACT` does, in every operation whose row holds that of `EXTRACT`. -/
theorem extractPart_reports (herrors : extractErrors ⊆ errorsOf i)
    (hi : extractErrors ++ extractWarnings ⊆ errorsOf i ++ warningsOf i) (raw : ByteString) (s : State) :
    Reports i s (extractPart (opcode i) raw s) := by
  refine ⟨.inr ?_, extractPart_logged hi raw s⟩
  obtain ⟨e, d, new, heq, hsome, hnone, -⟩ := extractPart_eq (opcode i) raw
  have hrow : ∀ d ∈ [Detail.vEmpty, .vMarker, .vLenField, .vLength, .xShort],
      d ∈ extractErrors ∧ d.errClass = some .protocol := by decide
  rw [heq]
  cases hx : extract raw with
  | some c => exact .inl (hsome (by simp [hx]))
  | none =>
    obtain ⟨rfl, hd⟩ := hnone hx
    obtain ⟨hmem, hclass⟩ := hrow d hd
    exact .inr ⟨herrors hmem, hclass⟩

/-! ## The rules of the decoders (R163 to R178) -/

/-- A rule that, whatever was logged before it, reports what the row of the operation `i` allows. -/
def KeepsRow (i : Instr) (k : State → State) : Prop := ∀ s u, Logged i s u → Reports i s (k u)

/-- A decoder's rule with errors `errs` and log entries `logs`, as its lemma under Laws/ states it, keeps a row that has them. -/
theorem KeepsRow.of_rule {k : State → State} {op : Byte} {errs logs : List Detail}
    (h : ∃ r e d new, (∀ u, k u = { u with record := r, err := e, errInfo := d, diag := u.diag ++ new }) ∧
      ((e = .none ∧ d = .none) ∨ (e = .parse ∧ d ∈ errs)) ∧ ∀ x ∈ new, x.op = op ∧ x.code = .eParse ∧ x.detail ∈ logs)
    (hop : op = opcode i) (herrs : ∀ d ∈ errs, d ∈ errorsOf i ∧ d.errClass = some .parse)
    (hlogs : ∀ d ∈ logs, d ∈ errorsOf i ++ warningsOf i ∧ d.diagCode = some .eParse) : KeepsRow i k := by
  obtain ⟨r, e, d, new, heq, houtcome, hnew⟩ := h
  intro s u hlog
  rw [heq]
  refine ⟨.inr (houtcome.imp_right ?_), hlog.append rfl fun x hx => ?_⟩
  · rintro ⟨rfl, hd⟩
    exact herrs d hd
  · obtain ⟨hxop, hcode, hdetail⟩ := hnew x hx
    obtain ⟨hmem, hparse⟩ := hlogs _ hdetail
    exact ⟨hxop.trans hop, hmem, hcode ▸ hparse⟩

/-- Each decoder of the common frame has the errors and warnings of its own rule in its row. -/
theorem PayloadDecoder.keepsRow {tag : RecTag} {k : ByteString → State → State} (hk : PayloadDecoder i tag k) (p : ByteString) :
    KeepsRow i (k p) := by
  cases hk with
  | protocolId => exact .of_rule (decodeProtocolId_eq p) rfl (by decide) (by decide)
  | status => exact .of_rule (decodeStatusWith_eq p _ _ _) rfl (by decide) (by decide)
  | mode => exact .of_rule (decodeMode_eq p) rfl (by decide) (by decide)
  | fault => exact .of_rule (decodeFault_eq p) rfl (by decide) (by decide)
  | serial => exact .of_rule (decodeSerial_eq p) rfl (by decide) (by decide)
  | firmware => exact .of_rule (decodeFirmware_eq p) rfl (by decide) (by decide)
  | rated => exact .of_rule (decodeRatedWith_eq p _ _) rfl (by decide) (by decide)
  | model => exact .of_rule (decodeModelWith_eq p _) rfl (by decide) (by decide)
  | time => exact .of_rule (decodeTime_eq p) rfl (by decide) (by decide)

/-- The row of a decoder of the common frame holds that of `EXTRACT` and the error of an empty payload (R160). -/
theorem PayloadDecoder.row {tag : RecTag} {k : ByteString → State → State} (hk : PayloadDecoder i tag k) :
    extractErrors ⊆ errorsOf i ∧ extractErrors ++ extractWarnings ⊆ errorsOf i ++ warningsOf i ∧ .pShort ∈ errorsOf i := by
  cases hk <;> decide

end Rows

/-! ## What every operation reports -/

/-- Every next state that the answer `r` may give has an outcome and a log of the row of `i`. -/
def ReportsRow (i : Instr) (s : State) (r : Result) : Prop := ∀ t, r = .next t → Reports i s t

section Answers

variable {i : Instr} {s : State}

theorem ReportsRow.next {t : State} (h : Reports i s t) : ReportsRow i s (.next t) := by
  rintro _ ⟨⟩
  exact h

/-- A success that logs nothing. -/
theorem ReportsRow.silent {t : State} (herr : t.err = .none) (hinfo : t.errInfo = .none) (hdiag : t.diag = s.diag) :
    ReportsRow i s (.next t) := .next (.success herr hinfo (.of_eq hdiag))

/-- A refusal of the block with an error of the row (R229). -/
theorem ReportsRow.refused {d : Detail} {u : State} (hd : d ∈ errorsOf i) (hc : d.errClass = some .caller)
    (hdiag : u.diag = s.diag) : ReportsRow i s (.next (callerError d (opcode i) u)) :=
  .next (.raise (.of_eq hdiag) hd hc)

theorem ReportsRow.fault (r : Fault) : ReportsRow i s (.fault r) := by
  rintro _ ⟨⟩

theorem ReportsRow.ite {c : Prop} [Decidable c] {r r' : Result} (h : ReportsRow i s r) (h' : ReportsRow i s r') :
    ReportsRow i s (if c then r else r') := by
  split
  · exact h
  · exact h'

theorem whenNotBusy_reports {k : State → Result} (hi : .busy ∈ errorsOf i) (h : ReportsRow i s (k s)) :
    ReportsRow i s (whenNotBusy i s k) :=
  .ite (.refused hi rfl rfl) h

theorem withResponse_reports {k : ByteString → Result} (hi : .notReady ∈ errorsOf i) (h : ReportsRow i s (k s.response)) :
    ReportsRow i s (withResponse i s k) :=
  .ite (.ite h (.fault _)) (.refused hi rfl rfl)

/-- The common frame of R160: the extractor's report where there is no payload, else that of the decoder's rule after it. -/
theorem PayloadDecoder.exec_reports {tag : RecTag} {k : ByteString → State → State} (hk : PayloadDecoder i tag k) (s : State) :
    ReportsRow i s (exec i s) := by
  obtain ⟨herrors, hlog, hshort⟩ := hk.row
  rw [hk.exec_eq]
  refine withResponse_reports (herrors (by decide)) (.ite (.next ?_) (.ite (.next ?_) (.next ?_)))
  · have hextract := extractPart_reports herrors hlog s.response s
    exact ⟨hextract.outcome, hextract.log⟩
  · exact .raise (u := setRecord _ _ _ _ _) (extractPart_logged hlog s.response s) hshort rfl
  · exact hk.keepsRow _ _ _ (extractPart_logged hlog s.response s)

theorem execCmdPush_reports (b : Byte) (s : State) : ReportsRow (.cmdPush b) s (execCmdPush b s) :=
  whenNotBusy_reports (by simp [errorsOf]) <| .ite (.silent rfl rfl rfl) (.refused (by simp [errorsOf]) rfl rfl)

theorem execTxStart_reports (m : Byte) (s : State) : ReportsRow (.txStart m) s (execTxStart m s) :=
  have refuse {d : Detail} (hd : d ∈ [Detail.busy, .badMarker, .cmdTooLong, .cmdNotAscii]) (hc : d.errClass = some .caller) :
      ReportsRow (.txStart m) s (.next (callerError d (opcode (.txStart m)) s)) := .refused hd hc rfl
  whenNotBusy_reports (by simp [errorsOf]) <| .ite (refuse (by decide) rfl) <| .ite (refuse (by decide) rfl) <|
    .ite (refuse (by decide) rfl) (.silent rfl rfl rfl)

theorem execTxPop_reports (s : State) : ReportsRow .txPop s (execTxPop s) := by
  unfold execTxPop
  cases s.txPhase with
  | idle => exact .refused (by decide) rfl rfl
  | body => exact .ite (.silent rfl rfl rfl) (.fault _)
  | _ => exact .silent rfl rfl rfl

/-- A byte stored writes neither the outcome nor the log. -/
theorem storeByte_outcome (b : Byte) (s : State) :
    (storeByte b s).err = s.err ∧ (storeByte b s).errInfo = s.errInfo ∧ (storeByte b s).diag = s.diag := by
  simp [storeByte_eq]

theorem execRxByte_reports (b : Byte) (s : State) : ReportsRow (.rxByte b) s (execRxByte b s) := by
  obtain ⟨herr, hinfo, hdiag⟩ := storeByte_outcome b s
  exact .ite (.ite (.next (.untouched rfl herr hinfo hdiag)) (.fault _)) (.next (.untouched rfl rfl rfl rfl))

theorem execRxTimeout_reports (s : State) : ReportsRow .rxTimeout s (execRxTimeout s) :=
  .ite (.ite (.next (.raise (.of_eq rfl) (by decide) rfl)) (.silent rfl rfl rfl)) (.next (.untouched rfl rfl rfl rfl))

theorem execAckCheck_reports (s : State) : ReportsRow .ackCheck s (execAckCheck s) :=
  withResponse_reports (by decide) (.ite (.silent rfl rfl rfl) (.next (.raise (.of_eq rfl) (by decide) rfl)))

/-- `DEC_SCHEDULE` logs the errors of `EXTRACT` and reports none of them. -/
theorem execDecSchedule_reports (s : State) : ReportsRow .decSchedule s (execDecSchedule s) := by
  have hlog := extractPart_logged (i := .decSchedule) (by decide) s.response s
  have hrule (p : ByteString) : KeepsRow .decSchedule (decodeSchedule p) :=
    .of_rule (decodeSchedule_eq p) rfl (by decide) (by decide)
  exact withResponse_reports (by decide) (.ite (.next (.success rfl rfl hlog)) (.next (hrule _ _ _ hlog)))

theorem execDecEnergy_reports (s : State) : ReportsRow .decEnergy s (execDecEnergy s) := by
  have hrule : KeepsRow .decEnergy (decodeEnergy s.response) := .of_rule (decodeEnergy_eq _) rfl (by decide) (by decide)
  exact withResponse_reports (by decide) (.next (hrule _ _ (.of_eq rfl)))

/-- What every operation reports, operation by operation. -/
theorem exec_reports (i : Instr) (s : State) : ReportsRow i s (exec i s) := by
  cases i with
  | nop => exact .next (.untouched rfl rfl rfl rfl)
  | reset | rxClear => exact .silent rfl rfl rfl
  | crcInit | crcByte | crcBit | cmdClear =>
    rw [exec]
    exact whenNotBusy_reports (by simp [errorsOf]) (.silent rfl rfl rfl)
  | cmdPush b => exact execCmdPush_reports b s
  | txStart m => exact execTxStart_reports m s
  | txPop => exact execTxPop_reports s
  | rxByte b => exact execRxByte_reports b s
  | rxTimeout => exact execRxTimeout_reports s
  | validate =>
    rw [exec]
    exact withResponse_reports (by decide) (.next (validatePart_reports s.response s))
  | extract =>
    rw [exec]
    exact withResponse_reports (by decide) (.next (extractPart_reports (by decide) (by decide) s.response s))
  | ackCheck => exact execAckCheck_reports s
  | decProtocolId => exact PayloadDecoder.protocolId.exec_reports s
  | decStatus => exact PayloadDecoder.status.exec_reports s
  | decMode => exact PayloadDecoder.mode.exec_reports s
  | decFault => exact PayloadDecoder.fault.exec_reports s
  | decSerial => exact PayloadDecoder.serial.exec_reports s
  | decFirmware => exact PayloadDecoder.firmware.exec_reports s
  | decRated => exact PayloadDecoder.rated.exec_reports s
  | decModel => exact PayloadDecoder.model.exec_reports s
  | decTime => exact PayloadDecoder.time.exec_reports s
  | decSchedule => exact execDecSchedule_reports s
  | decEnergy => exact execDecEnergy_reports s

end Answers

/-! ## The outcome is overwritten (R221) -/

/-- The state with another outcome in `err` and `err_info`. -/
def State.withOutcome (e : ErrClass) (d : Detail) (s : State) : State := { s with err := e, errInfo := d }

/-- A meaning that does not depend on the outcome before it and leaves none of it. -/
def OverwritesOutcome (k : State → Result) : Prop := ∀ (s : State) (e : ErrClass) (d : Detail), k (s.withOutcome e d) = k s

/-- A choice by a condition on the other registers. -/
theorem OverwritesOutcome.ite {c : State → Prop} [DecidablePred c] {k k' : State → Result}
    (hc : ∀ (s : State) (e : ErrClass) (d : Detail), c (s.withOutcome e d) ↔ c s) (hk : OverwritesOutcome k)
    (hk' : OverwritesOutcome k') : OverwritesOutcome fun s => if c s then k s else k' s := by
  intro s e d
  simp only [hc, hk s e d, hk' s e d]

theorem whenNotBusy_overwritesOutcome {i : Instr} {k : State → Result} (hk : OverwritesOutcome k) :
    OverwritesOutcome fun s => whenNotBusy i s k :=
  .ite (fun _ _ _ => Iff.rfl) (fun _ _ _ => rfl) hk

theorem execCmdPush_overwritesOutcome (b : Byte) : OverwritesOutcome (execCmdPush b) :=
  whenNotBusy_overwritesOutcome (.ite (fun _ _ _ => Iff.rfl) (fun _ _ _ => rfl) fun _ _ _ => rfl)

theorem execTxStart_overwritesOutcome (m : Byte) : OverwritesOutcome (execTxStart m) :=
  have refuse (d : Detail) : OverwritesOutcome fun s => .next (callerError d (opcode (.txStart m)) s) := fun _ _ _ => rfl
  whenNotBusy_overwritesOutcome <|
    .ite (fun _ _ _ => Iff.rfl) (refuse .badMarker) <| .ite (fun _ _ _ => Iff.rfl) (refuse .cmdTooLong) <|
      .ite (fun _ _ _ => Iff.rfl) (refuse .cmdNotAscii) fun _ _ _ => rfl

theorem popBody_overwritesOutcome : OverwritesOutcome popBody :=
  .ite (fun _ _ _ => Iff.rfl) (fun _ _ _ => rfl) fun _ _ _ => rfl

theorem execTxPop_overwritesOutcome : OverwritesOutcome (exec .txPop) := by
  intro s e d
  cases hp : s.txPhase <;> rw [exec_txPop_of_phase hp, exec_txPop_of_phase (s := s.withOutcome e d) hp]
  case body => exact popBody_overwritesOutcome { s with txPhase := .body } e d
  all_goals rfl

/-- The operations that need a Response: what they write is decided by the Response alone, or the guard answers. -/
theorem exec_overwritesOutcome_of_needsResponse {i : Instr} (hi : needsResponse i = true) : OverwritesOutcome (exec i) := by
  intro s e d
  by_cases hd : s.rxState = .done
  · by_cases hl : s.rxLen ≤ 1000
    · obtain ⟨_, _, _, _, _, _, _, -, -, -, h⟩ := exec_response i hi s.response
      rw [h s hd hl rfl, h (s.withOutcome e d) hd hl rfl]
      rfl
    · obtain ⟨k, hk⟩ := exec_eq_withResponse hi
      rw [hk, hk, withResponse_too_long hd hl, withResponse_too_long (s := s.withOutcome e d) hd hl]
      rfl
  · rw [exec_not_done hi hd, exec_not_done hi (s := s.withOutcome e d) hd]
    rfl

/-- Every Host operation but `NOP` overwrites the outcome, operation by operation. -/
theorem exec_overwritesOutcome {i : Instr} (hi : writesOutcome i = true) : OverwritesOutcome (exec i) := by
  cases i with
  | nop | rxByte | rxTimeout => cases hi
  | reset | rxClear => exact fun _ _ _ => rfl
  | crcInit | crcByte | crcBit | cmdClear => exact whenNotBusy_overwritesOutcome fun _ _ _ => rfl
  | cmdPush b => exact execCmdPush_overwritesOutcome b
  | txStart m => exact execTxStart_overwritesOutcome m
  | txPop => exact execTxPop_overwritesOutcome
  | _ => exact exec_overwritesOutcome_of_needsResponse rfl

/-- `RX_BYTE` never writes the outcome, whether it stores the byte or drops it. -/
theorem exec_rxByte_outcome {b : Byte} {s t : State} (h : exec (.rxByte b) s = .next t) : t.err = s.err ∧ t.errInfo = s.errInfo := by
  simp only [exec, execRxByte] at h
  repeat' split at h
  all_goals cases h
  · obtain ⟨herr, hinfo, -⟩ := storeByte_outcome b s
    exact ⟨herr, hinfo⟩
  · exact ⟨rfl, rfl⟩

end Sys2Proof.Machine
end

section
open Sys2Proof Sys2Proof.Machine

/-! ## The statements -/

/-- Settles O56: a wait and a reserved word answer a next state, and so does every operation in a state of the invariants. -/
theorem noStepStops : Obligations.NoStepStops := by
  intro s hb hs hc
  cases hinbox : s.inbox with
  | nil => exact ⟨s, step_of_nil hinbox⟩
  | cons p rest =>
    rw [step_of_cons hinbox, runWord]
    cases decode p.word with
    | error r => exact ⟨_, rfl⟩
    | ok i =>
      exact exec_completes i (s := { s with inbox := rest }) (.of_contents (s := s) rfl hb) (hs.of_builderRegs rfl)
        (.of_contents (s := s) rfl hc)

/-- Settles O57: the report of every operation, operation by operation. -/
theorem outcomesAreThoseOfTheTable : Obligations.OutcomesAreThoseOfTheTable := by
  intro i s t h
  obtain ⟨houtcome, hlog⟩ := exec_reports i s t h
  exact ⟨houtcome, hlog⟩

/-- Settles O58: each Host operation overwrites the outcome, and a byte of the Line is stored or dropped without one. -/
theorem hostOperationsWriteTheOutcome : Obligations.HostOperationsWriteTheOutcome := by
  refine ⟨fun i s e d hi => exec_overwritesOutcome hi s e d, ?_⟩
  rintro i s t (rfl | ⟨b, rfl⟩) h
  · cases h
    exact ⟨rfl, rfl⟩
  · exact exec_rxByte_outcome h

end

/-! Reset and control (70_reset_and_hazards.md): what `NOP` and `RESET` do (R251, R253), which bits of the numbered register views hold
which register (10_state.md R24), and the invariants in the state after power-on reset (R250). -/

section
namespace Sys2Proof.Machine

/-! ## The two operations (R251, R253) -/

theorem exec_nop (s : State) : exec .nop s = .next s := rfl

/-- The power-on outcome is success already, so the success that `RESET` reports adds nothing to the power-on values. -/
theorem exec_reset (s : State) :
    exec .reset s = .next { State.reset with diag := s.diag, cmd := s.cmd, rx := s.rx, inbox := s.inbox } := rfl

/-! ## Fields of a word

A view is a concatenation, so a field of it is found by passing over the fields below it one by one. -/

section Fields

variable {v w n k len : Nat}

/-- Passing over the lowest field of a word. -/
theorem extractLsb'_append_of_high {hi : BitVec v} {f : BitVec len} (lo : BitVec w) (h : hi.extractLsb' k len = f) :
    (hi ++ lo).extractLsb' (k + w) len = f := by
  rw [BitVec.extractLsb'_append_eq_of_le (Nat.le_add_left w k), Nat.add_sub_cancel, h]

/-- A one-bit field is the bit at its place. -/
theorem getLsbD_of_extractLsb' {x : BitVec n} {b : Bool} (h : x.extractLsb' k 1 = flagBit b) : x.getLsbD k = b := by
  have hbit := congrArg (·.getLsbD 0) h
  simpa [flagBit] using hbit

/-- A length register in its view: the view is wide enough for the register's range, and cuts a value outside it. -/
theorem toNat_zero_append_ofNat (v w m : Nat) : (0#v ++ BitVec.ofNat w m).toNat = m % 2 ^ w := by
  simp

end Fields

/-! ## The views, field by field (R24) -/

section Views

variable (s : State)

theorem statusView_fields :
    s.statusView.extractLsb' 0 4 = s.txPhase.code ∧ s.statusView.extractLsb' 4 2 = s.rxState.code ∧
    s.statusView.extractLsb' 6 2 = s.rxEnd.code ∧ s.statusView.getLsbD 8 = s.cmdOvf ∧ s.statusView.getLsbD 9 = s.cmdBad ∧
    s.statusView.extractLsb' 10 2 = s.ack.code ∧ s.statusView.extractLsb' 12 4 = 0#4 := by
  have aboveRxEnd {k len : Nat} {f : BitVec len}
      (h : (0#4 ++ s.ack.code ++ flagBit s.cmdBad ++ flagBit s.cmdOvf).extractLsb' k len = f) :
      s.statusView.extractLsb' (k + 8) len = f :=
    extractLsb'_append_of_high s.txPhase.code <| extractLsb'_append_of_high s.rxState.code <|
      extractLsb'_append_of_high s.rxEnd.code h
  refine ⟨BitVec.extractLsb'_append_eq_right, ?rxState, ?rxEnd, ?cmdOvf, ?cmdBad, ?ack, ?unused⟩
  case rxState => exact extractLsb'_append_of_high _ BitVec.extractLsb'_append_eq_right
  case rxEnd => exact extractLsb'_append_of_high _ <| extractLsb'_append_of_high _ BitVec.extractLsb'_append_eq_right
  case cmdOvf => exact getLsbD_of_extractLsb' <| aboveRxEnd BitVec.extractLsb'_append_eq_right
  case cmdBad =>
    exact getLsbD_of_extractLsb' <| aboveRxEnd <| extractLsb'_append_of_high _ BitVec.extractLsb'_append_eq_right
  case ack =>
    exact aboveRxEnd <| extractLsb'_append_of_high _ <| extractLsb'_append_of_high _ BitVec.extractLsb'_append_eq_right
  case unused =>
    exact aboveRxEnd <| extractLsb'_append_of_high _ <| extractLsb'_append_of_high _ BitVec.extractLsb'_append_eq_left

theorem errView_fields :
    s.errView.extractLsb' 0 3 = s.err.code ∧ s.errView.extractLsb' 3 5 = 0#5 ∧ s.errView.extractLsb' 8 8 = s.errInfo.code :=
  ⟨BitVec.extractLsb'_append_eq_right, extractLsb'_append_of_high _ BitVec.extractLsb'_append_eq_right,
    extractLsb'_append_of_high _ BitVec.extractLsb'_append_eq_left⟩

theorem txByteView_fields : s.txByteView.extractLsb' 0 8 = s.txOut ∧ s.txByteView.extractLsb' 8 8 = s.txMarker :=
  ⟨BitVec.extractLsb'_append_eq_right, BitVec.extractLsb'_append_eq_left⟩

theorem verdictView_fields :
    s.verdictView.getLsbD 0 = s.verdict.valid ∧ s.verdictView.getLsbD 1 = s.verdict.ok ∧
    s.verdictView.getLsbD 2 = s.verdict.soft ∧ s.verdictView.getLsbD 3 = s.verdict.noterm ∧
    s.verdictView.extractLsb' 4 3 = s.verdict.reason.code ∧ s.verdictView.getLsbD 7 = false ∧
    s.verdictView.getLsbD 8 = s.pay.valid ∧ s.verdictView.getLsbD 9 = s.pay.isNull ∧
    s.verdictView.getLsbD 10 = s.pay.fallback ∧ s.verdictView.extractLsb' 11 5 = 0#5 := by
  have aboveFlags {k len : Nat} {f : BitVec len}
      (h : (0#5 ++ flagBit s.pay.fallback ++ flagBit s.pay.isNull ++ flagBit s.pay.valid ++ 0#1 ++
        s.verdict.reason.code).extractLsb' k len = f) : s.verdictView.extractLsb' (k + 4) len = f :=
    extractLsb'_append_of_high (flagBit s.verdict.valid) <| extractLsb'_append_of_high (flagBit s.verdict.ok) <|
      extractLsb'_append_of_high (flagBit s.verdict.soft) <| extractLsb'_append_of_high (flagBit s.verdict.noterm) h
  have abovePadding {k len : Nat} {f : BitVec len}
      (h : (0#5 ++ flagBit s.pay.fallback ++ flagBit s.pay.isNull ++ flagBit s.pay.valid).extractLsb' k len = f) :
      s.verdictView.extractLsb' (k + 8) len = f :=
    aboveFlags <| extractLsb'_append_of_high s.verdict.reason.code <| extractLsb'_append_of_high 0#1 h
  refine ⟨?valid, ?ok, ?soft, ?noterm, aboveFlags BitVec.extractLsb'_append_eq_right, ?padding, ?payValid, ?payNull, ?fallback,
    ?unused⟩
  case valid => exact getLsbD_of_extractLsb' BitVec.extractLsb'_append_eq_right
  case ok => exact getLsbD_of_extractLsb' <| extractLsb'_append_of_high _ BitVec.extractLsb'_append_eq_right
  case soft =>
    exact getLsbD_of_extractLsb' <| extractLsb'_append_of_high _ <| extractLsb'_append_of_high _
      BitVec.extractLsb'_append_eq_right
  case noterm =>
    exact getLsbD_of_extractLsb' <| extractLsb'_append_of_high _ <| extractLsb'_append_of_high _ <|
      extractLsb'_append_of_high _ BitVec.extractLsb'_append_eq_right
  case padding =>
    exact getLsbD_of_extractLsb' <| aboveFlags <| extractLsb'_append_of_high _ BitVec.extractLsb'_append_eq_right
  case payValid => exact getLsbD_of_extractLsb' <| abovePadding BitVec.extractLsb'_append_eq_right
  case payNull =>
    exact getLsbD_of_extractLsb' <| abovePadding <| extractLsb'_append_of_high _ BitVec.extractLsb'_append_eq_right
  case fallback =>
    exact getLsbD_of_extractLsb' <| abovePadding <| extractLsb'_append_of_high _ <| extractLsb'_append_of_high _
      BitVec.extractLsb'_append_eq_right
  case unused =>
    exact abovePadding <| extractLsb'_append_of_high _ <| extractLsb'_append_of_high _ BitVec.extractLsb'_append_eq_left

theorem recTagView_fields :
    s.recTagView.extractLsb' 0 4 = s.record.tag.code ∧ s.recTagView.getLsbD 4 = s.record.isNull ∧
    s.recTagView.getLsbD 5 = s.record.isPartial ∧ s.recTagView.extractLsb' 6 10 = 0#10 :=
  ⟨BitVec.extractLsb'_append_eq_right,
    getLsbD_of_extractLsb' <| extractLsb'_append_of_high _ BitVec.extractLsb'_append_eq_right,
    getLsbD_of_extractLsb' <| extractLsb'_append_of_high _ <| extractLsb'_append_of_high _ BitVec.extractLsb'_append_eq_right,
    extractLsb'_append_of_high _ <| extractLsb'_append_of_high _ BitVec.extractLsb'_append_eq_left⟩

/-! ## The views that hold a length or an index (R24) -/

theorem cmdLenView_toNat : s.cmdLenView.toNat = s.cmdLen % 1024 := toNat_zero_append_ofNat 6 10 _
theorem txIdxView_toNat : s.txIdxView.toNat = s.txIdx % 1024 := toNat_zero_append_ofNat 6 10 _
theorem rxLenView_toNat : s.rxLenView.toNat = s.rxLen % 1024 := toNat_zero_append_ofNat 6 10 _
theorem declLenView_toNat : s.declLenView.toNat = s.verdict.declLen % 1024 := toNat_zero_append_ofNat 6 10 _
theorem expTotalView_toNat : s.expTotalView.toNat = s.verdict.expTotal % 2048 := toNat_zero_append_ofNat 5 11 _
theorem payOffView_toNat : s.payOffView.toNat = s.pay.off % 8 := toNat_zero_append_ofNat 13 3 _
theorem payLenView_toNat : s.payLenView.toNat = s.pay.len % 1024 := toNat_zero_append_ofNat 6 10 _

/-- The sixteen numbered views of any state. -/
theorem views_eq :
    (List.range 16).map s.view =
      [some s.statusView.toNat, some s.errView.toNat, some s.crc.toNat, some (s.cmdLen % 1024), some (s.txIdx % 1024),
        some s.txByteView.toNat, some (s.rxLen % 1024), some s.verdictView.toNat, some (s.verdict.declLen % 1024),
        some (s.verdict.expTotal % 2048), some (s.pay.off % 8), some (s.pay.len % 1024), some s.recTagView.toNat,
        some s.diag.length, some 2, some 1000] := by
  rw [← cmdLenView_toNat, ← txIdxView_toNat, ← rxLenView_toNat, ← declLenView_toNat, ← expTotalView_toNat, ← payOffView_toNat,
    ← payLenView_toNat]
  rfl

end Views

/-! ## The invariants after power-on reset (R250) -/

theorem reset_buffersOk : BuffersOk State.reset where
  cmd_wf := rfl
  cmd_within := rfl
  rx_wf := rfl
  rx_within := rfl
  cmdLen_le := Nat.zero_le _
  rxLen_le := Nat.zero_le _

/-- The command is empty and no frame is under construction. -/
theorem reset_builderOk : BuilderOk State.reset :=
  .of_idle reset_txPhase rfl rfl nofun (Nat.zero_le _)

/-- No Response is held. -/
theorem reset_captureOk : CaptureOk State.reset :=
  .of_empty nofun reset_rxLen reset_rxEnd

/-- Nothing is judged. -/
theorem reset_verdictOk : VerdictOk State.reset :=
  Unjudged.verdictOk ⟨reset_verdict, reset_pay, reset_ack⟩

end Sys2Proof.Machine
end

section
open Sys2Proof Sys2Proof.Machine

/-! ## The statements -/

/-- Settles O7: the elements and the views of the power-on state and the numbers of the enumerations are read off their definitions; the
views of any state are taken apart field by field. -/
theorem powerOnState : Obligations.PowerOnState := by
  refine ⟨reset_crc, reset_cmdLen, reset_cmdOvf, reset_cmdBad, reset_rxLen, reset_txPhase, reset_txIdx, reset_txMarker, reset_txOut,
    reset_txStream, reset_rxState, reset_rxEnd, reset_verdict, reset_pay, reset_ack, reset_err, reset_errInfo, reset_record,
    reset_diag, rfl, ?resetViews, ?views, ?numbers⟩
  case resetViews => exact views_eq State.reset
  case views =>
    exact fun s => ⟨views_eq s, statusView_fields s, errView_fields s, txByteView_fields s, verdictView_fields s,
      recTagView_fields s⟩
  case numbers => exact ⟨rfl, rfl, rfl, rfl, rfl, rfl, rfl, rfl, rfl, rfl, rfl, rfl⟩

/-- Settles O8: the next state of `RESET` is the power-on state but for the log, the buffers' bytes and the words not yet presented. -/
theorem resetRestoresAllButTheLog : Obligations.ResetRestoresAllButTheLog := by
  intro s
  exact ⟨_, exec_reset s, rfl, reset_crc, reset_cmdLen, reset_cmdOvf, reset_cmdBad, reset_rxLen, reset_txPhase, reset_txIdx,
    reset_txMarker, reset_txOut, reset_txStream, reset_rxState, reset_rxEnd, rfl, rfl, reset_ack, reset_err, reset_errInfo, rfl⟩

/-- Settles O9: the next state of `NOP` is the state itself. -/
theorem nopWritesNothing : Obligations.NopWritesNothing := exec_nop

/-- Settles O55: both buffers are empty, no frame and no Response is there, and nothing is judged or decoded. -/
theorem resetMeetsTheInvariants : Obligations.ResetMeetsTheInvariants where
  buffers := reset_buffersOk
  builder := reset_builderOk
  capture := reset_captureOk
  verdict := reset_verdictOk
  record := .of_absent reset_record

end
